-- ==== Sys2Proof/Word.lean ====
section
/-! DEFINITION. The word types of the engine (00_scope.md R8): a byte is 8 bits, a word is 16 bits, unsigned. -/

namespace Sys2Proof

/-- A byte: "8 bits" (00_scope.md R8). -/
abbrev Byte := BitVec 8

/-- A word: "16 bits, unsigned" (00_scope.md R8). -/
abbrev Word := BitVec 16

/-- A 32-bit counter or configuration field (10_state.md R26, R27, R33, R34, R36). -/
abbrev Word32 := BitVec 32

end Sys2Proof
end

