-- ==== Sys2Proof/Config.lean ====
section
/-! DEFINITION. What an implementation or a run fixes (00_scope.md R5), what the environment may do in a tick (00_scope.md
R7, 10_state.md R21), and the free values: constants without a body that stand for what the spec leaves open. -/

namespace Sys2Proof

/-- `MIN_FRAME`: "unit id + function code + CRC = 4 bytes" (00_scope.md R5, 10_state.md R37). -/
def minFrame : Nat := 4

/-- `NO_ID`, the wildcard sentinel (00_scope.md R5, 10_state.md R32). -/
def noId : Byte := 0xFF#8

/-- The two capacities "fixed at build time" (10_state.md R37, 00_scope.md R5); no tick writes them (log 15). -/
structure Build where
  /-- `RX_BUF_CAP`, 9 to 65535. -/
  rxBufCap : Nat := 256
  /-- `TX_BUF_CAP`, at least 255. -/
  txBufCap : Nat := 256
  deriving DecidableEq, Repr, Inhabited

/-- The configuration record `cfg` (00_scope.md R5, 10_state.md R31 to R36). `T15` and `T35` are derived from it by the timing
calculator and are registers of State. -/
structure Cfg where
  /-- `UNIT_ID`, 1 to 247 or `NO_ID` (10_state.md R32). -/
  unitId : Byte
  /-- `BAUD` (10_state.md R33). -/
  baud : Word32
  /-- `DATA_BITS` (10_state.md R33). -/
  dataBits : Nat
  /-- `PARITY_BITS` (10_state.md R33). -/
  parityBits : Nat
  /-- `STOP_BITS` (10_state.md R33). -/
  stopBits : Nat
  /-- `CLK_HZ` (10_state.md R33). -/
  clkHz : Word32
  /-- `T15_FLOOR`, in ticks (00_scope.md R5, 49_timing_calculator.md R263). -/
  t15Floor : Nat
  /-- `T35_FLOOR`, in ticks (00_scope.md R5, 49_timing_calculator.md R263). -/
  t35Floor : Nat
  /-- `N_COIL` (10_state.md R35). -/
  nCoil : Nat
  /-- `N_DI` (10_state.md R35). -/
  nDi : Nat
  /-- `N_HR` (10_state.md R35). -/
  nHr : Nat
  /-- `N_IR` (10_state.md R35). -/
  nIr : Nat
  /-- `HAS_TXEN` (10_state.md R36). -/
  hasTxEn : Bool
  /-- `HAS_HOOK` (10_state.md R36). -/
  hasHook : Bool
  /-- `FLUSH_HOLD` (10_state.md R36). -/
  flushHold : Word32
  deriving DecidableEq, Repr, Inhabited

/-- The test configuration TC of 95_test_vectors.md section 2: the configuration of `State.reset` (log 1, DESIGN CHOICE:
`cfg` is an open argument in the spec). -/
def Cfg.tc : Cfg where
  unitId := 1#8
  baud := 9600#32
  dataBits := 8
  parityBits := 0
  stopBits := 1
  clkHz := 9600#32
  t15Floor := 8
  t35Floor := 17
  nCoil := 16
  nDi := 8
  nHr := 10
  nIr := 4
  hasTxEn := true
  hasHook := true
  flushHold := 0#32

/-- The two data spaces of 1-bit elements (20_memory.md R60). -/
inductive BitSpace where
  | coil | di
  deriving DecidableEq, Repr, Inhabited

/-- The two data spaces of 16-bit elements (20_memory.md R60). -/
inductive WordSpace where
  | hr | ir
  deriving DecidableEq, Repr, Inhabited

/-- One write of the application to an element of the storage it owns (20_memory.md R77), at an address 0 to 65535 (20_memory.md
R61). -/
inductive AppWrite where
  | bit (sp : BitSpace) (addr : Word) (v : Bool)
  | word (sp : WordSpace) (addr : Word) (v : Word)
  deriving DecidableEq, Repr, Inhabited

/-- What the environment does between the previous tick and this one, and the levels of the input ports in this tick
(00_scope.md R7, 10_state.md R21). -/
structure TickInput where
  /-- `rst` = 1 with the record on the `cfg` port, or `rst` = 0 (the `cfg` port is sampled only while `rst` = 1, 10_state.md R31). -/
  rst : Option Cfg := none
  /-- Bytes the receive transport appends to its queue before this tick (40_frame_receiver.md R131). -/
  arrivals : List Byte := []
  /-- Writes of the application before this tick, in order (20_memory.md R77). -/
  app : List AppWrite := []
  /-- How many of the taken bytes have left the link since the previous tick (10_state.md R38b). -/
  txLeft : Nat := 0
  /-- Port `tx_ready`. -/
  txReady : Bool := false
  /-- Port `tx_done`. -/
  txDone : Bool := false
  deriving DecidableEq, Repr, Inhabited

/-- FREE VALUE (log 5): what the environment does in tick number `n` when the schedule `State.env` has run out. -/
opaque Config.freeInput : Nat → TickInput

/-- FREE VALUE (log 2): byte `i` of `rx_buf` after a reset in tick `n`, "unspecified" (10_state.md R39). -/
opaque Config.freeRxByte : Nat → Nat → Byte

/-- FREE VALUE (log 2): byte `i` of `tx_buf` after a reset in tick `n`, "unspecified" (10_state.md R39). -/
opaque Config.freeTxByte : Nat → Nat → Byte

end Sys2Proof
end

