-- ==== Sys2Proof/Machine/Timing.lean ====
section
/-! DEFINITION. The timing calculator (49_timing_calculator.md) and which configurations are legal (00_scope.md R5, R6). -/

namespace Sys2Proof.Machine

/-- `CHAR_BITS = 1 + DATA_BITS + PARITY_BITS + STOP_BITS` (49_timing_calculator.md R260). -/
def charBits (c : Cfg) : Nat := 1 + c.dataBits + c.parityBits + c.stopBits

/-- `ceil(a/b)` on naturals (00_scope.md R8). DESIGN CHOICE (log 16): for `b` = 0, to which the spec gives no quotient and which
only the illegal `BAUD` = 0 brings about, it is 0, so that the timeouts of such a record are their floors. -/
def ceilDiv (a b : Nat) : Nat := (a + b - 1) / b

/-- The character timeout in ticks (49_timing_calculator.md R261). -/
def charTimeout (c : Cfg) : Nat := max (ceilDiv (3 * charBits c * c.clkHz.toNat) (2 * c.baud.toNat)) c.t15Floor

/-- The frame timeout in ticks (49_timing_calculator.md R262). -/
def frameTimeout (c : Cfg) : Nat := max (ceilDiv (7 * charBits c * c.clkHz.toNat) (2 * c.baud.toNat)) c.t35Floor

/-- The spec's default floor of the character timeout, 750 microseconds in ticks (49_timing_calculator.md R263). -/
def defaultT15Floor (clkHz : Nat) : Nat := ceilDiv (750 * clkHz) 1000000

/-- The spec's default floor of the frame timeout, 1750 microseconds in ticks (49_timing_calculator.md R263). -/
def defaultT35Floor (clkHz : Nat) : Nat := ceilDiv (1750 * clkHz) 1000000

/-- A legal unit id: 1 to 247, or the wildcard (10_state.md R32). -/
def legalUnitId (u : Byte) : Bool := (1 ≤ u.toNat && u.toNat ≤ 247) || u == noId

/-- Legal capacities (00_scope.md R5). -/
def legalBuild (b : Build) : Bool := 9 ≤ b.rxBufCap && b.rxBufCap ≤ 65535 && 255 ≤ b.txBufCap

/-- A legal `cfg`: "every value is in its legal range and T15 ≤ T35" (00_scope.md R5, R6; 49_timing_calculator.md R264 for
`T35` < 2^32). -/
def legalCfg (c : Cfg) : Bool :=
  legalUnitId c.unitId && 1 ≤ c.baud.toNat && 1 ≤ c.dataBits && c.parityBits ≤ 1 && 1 ≤ c.stopBits && 1 ≤ c.clkHz.toNat
    && 1 ≤ c.t15Floor && c.t15Floor ≤ c.t35Floor
    && c.nCoil ≤ 65536 && c.nDi ≤ 65536 && c.nHr ≤ 65536 && c.nIr ≤ 65536
    && frameTimeout c < 2 ^ 32

end Sys2Proof.Machine
end

