-- ==== Sys2Proof/Machine/State.lean ====
section
/-! DEFINITION. The state of the machine (10_state.md R22 to R40, 20_memory.md R60), its reasons to stop, and reset. -/

namespace Sys2Proof.Machine

/-- `phase`, "this hardware's program counter" (10_state.md R22). -/
inductive Phase where
  | idle | receiving | transmit | flush
  deriving DecidableEq, Repr

/-- The three exceptions (60_exceptions.md R270). -/
inductive Exc where
  | illegalFunction | illegalDataAddress | illegalDataValue
  deriving DecidableEq, Repr

/-- The triple of a notification (42_dispatcher.md R178). -/
structure Hook where
  /-- `hook_fc`. -/
  fc : Byte
  /-- `hook_addr`. -/
  addr : Word
  /-- `hook_qty`. -/
  qty : Word
  deriving DecidableEq, Repr

/-- The event labels (00_scope.md R10). -/
inductive Event where
  | earlyByte (b : Byte)
  | overflow
  | abandon
  | dropShort
  | dropCrc
  | ignoreUnit
  | bcastOk (fc : Byte)
  | bcastExc (fc : Byte) (e : Exc)
  | reply (fc : Byte)
  | exc (fc : Byte) (e : Exc)
  | release
  deriving DecidableEq, Repr

/-- The output ports of one tick but `tx_en` (10_state.md R21). A data port has a value only while its valid port is 1, so
`tx_valid`/`tx_data` and `hook_valid`/the triple are each one Option (log 13). -/
structure Outputs where
  /-- `rx_pop`. -/
  rxPop : Bool := false
  /-- `tx_valid` and `tx_data`. -/
  tx : Option Byte := none
  /-- `hook_valid` and `hook_fc`, `hook_addr`, `hook_qty`. -/
  hook : Option Hook := none
  deriving DecidableEq, Repr

/-- A data table of 1-bit elements: address and element, in the canonical form of Machine/Memory.lean (logs 3, 4). -/
abbrev BitTable := List (Nat × Bool)

/-- A data table of 16-bit elements, in the same form (logs 3, 4). -/
abbrev WordTable := List (Nat × Word)

/-- Everything the spec gives the machine, one home each. -/
structure State where
  /-- 10_state.md R22. -/
  phase : Phase
  /-- `rx_buf`, all `RX_BUF_CAP` bytes (10_state.md R23). -/
  rxBuf : List Byte
  /-- `rx_len` (10_state.md R24). -/
  rxLen : Nat
  /-- `tx_buf`, all `TX_BUF_CAP` bytes (10_state.md R25). -/
  txBuf : List Byte
  /-- `tx_len` (10_state.md R25). -/
  txLen : Nat
  /-- `tx_idx` (10_state.md R25). -/
  txIdx : Nat
  /-- `hold` (10_state.md R26). -/
  hold : Word32
  /-- `sil` (10_state.md R27). -/
  sil : Word32
  /-- `tx_en_r` (10_state.md R28). -/
  txEnR : Bool
  /-- `pend_hook`: valid bit and triple (10_state.md R29; log 14). -/
  pendHook : Option Hook
  /-- `cfg` as sampled by the last reset tick (10_state.md R31). -/
  cfg : Cfg
  /-- `T15`, derived when `cfg` was sampled (10_state.md R34). -/
  t15 : Word32
  /-- `T35`, derived when `cfg` was sampled (10_state.md R34). -/
  t35 : Word32
  /-- The build-time constants (10_state.md R37). -/
  build : Build
  /-- Table COIL (20_memory.md R60). -/
  coil : BitTable
  /-- Table DI (20_memory.md R60). -/
  di : BitTable
  /-- Table HR (20_memory.md R60). -/
  hr : WordTable
  /-- Table IR (20_memory.md R60). -/
  ir : WordTable
  /-- The receive transport's queue of unread bytes, oldest first (10_state.md R38a). -/
  rxQueue : List Byte
  /-- The bytes the transmit transport has taken and not yet sent, oldest first (10_state.md R38b). -/
  txPending : List Byte
  /-- The output ports in the last tick (10_state.md R21). -/
  out : Outputs
  /-- The event history, oldest first (00_scope.md R10): the model's own, nothing reads it (log 11). -/
  events : List Event
  /-- The number of the next tick: the model's own, it only selects free values (log 5). -/
  tick : Nat
  /-- What the environment does in the coming ticks: the model's own (log 5). -/
  env : List TickInput
  deriving DecidableEq, Repr

/-- Why the machine stops with a fault: there is no such reason. "The engine has no fault state", "a model needs no fault
constructor for the engine" (60_exceptions.md R279), and no step of the other agents can fail (log 10). -/
inductive Fault where
  deriving DecidableEq, Repr

/-- Why the model gives no meaning to a tick. -/
inductive Refusal where
  /-- Raised by no arm: an instruction that has no meaning yet. SAFE. -/
  | notModelled (mnemonic : String)
  /-- Raised by a tick with `rst` = 0 under an illegal `cfg` or illegal capacities: "a model refuses to start from it"
  (70_reset_and_hazards.md R303, 00_scope.md R6). SAFE: the model stops (log 9). -/
  | illegalConfig
  deriving DecidableEq, Repr

/-- The state right after a reset tick (10_state.md R39, 70_reset_and_hazards.md R300). `cfg` is an open argument of the
spec, here TC (log 1); the buffers are unspecified, here 0 (log 2); the tables and the transports' queues are not the
engine's, here with nothing listed (logs 3, 6, 18); the last three fields are the model's own (logs 5, 11). -/
def State.reset : State where
  phase := .idle
  rxBuf := List.replicate 256 0#8
  rxLen := 0
  txBuf := List.replicate 256 0#8
  txLen := 0
  txIdx := 0
  hold := 0#32
  sil := 0#32
  txEnR := false
  pendHook := none
  cfg := Cfg.tc
  t15 := BitVec.ofNat 32 (charTimeout Cfg.tc)
  t35 := BitVec.ofNat 32 (frameTimeout Cfg.tc)
  build := {}
  coil := []
  di := []
  hr := []
  ir := []
  rxQueue := []
  txPending := []
  out := {}
  events := []
  tick := 0
  env := []

end Sys2Proof.Machine
end

