-- ==== Sys2Proof/Machine/Memory.lean ====
section
/-! DEFINITION. The data tables as memories (20_memory.md): a list of address and element pairs in one canonical form,
addresses strictly rising and no entry equal to what an unlisted address reads as (logs 3, 4). Every access to a table
goes through the operations of this file. -/

namespace Sys2Proof.Machine

/-- What a 1-bit element that nothing has written reads as (log 3, DESIGN CHOICE: 10_state.md R39 gives the tables no value). -/
def unlistedBit : Bool := false

/-- What a 16-bit element that nothing has written reads as (log 3, DESIGN CHOICE). -/
def unlistedWord : Word := 0#16

/-- The canonical form from address `lo` on; `d` is what an unlisted address reads as. -/
def wfFrom {α : Type} [DecidableEq α] (d : α) : Nat → List (Nat × α) → Bool
  | _, [] => true
  | lo, (a, v) :: t => lo ≤ a && v != d && wfFrom d (a + 1) t

/-- The canonical form of one table. -/
def Memory.wf {α : Type} [DecidableEq α] (d : α) (t : List (Nat × α)) : Bool := wfFrom d 0 t

/-- The element at address `a`. -/
def cellGet {α : Type} (d : α) : List (Nat × α) → Nat → α
  | [], _ => d
  | (b, v) :: t, a => if a = b then v else cellGet d t a

/-- Store `v` at address `a`, keeping the canonical form. -/
def cellSet {α : Type} [DecidableEq α] (d : α) : List (Nat × α) → Nat → α → List (Nat × α)
  | [], a, v => if v = d then [] else [(a, v)]
  | (b, w) :: t, a, v =>
    if a < b then (if v = d then (b, w) :: t else (a, v) :: (b, w) :: t)
    else if a = b then (if v = d then t else (a, v) :: t)
    else (b, w) :: cellSet d t a v

/-- `MemRead(S:a, n)`: n consecutive elements in ascending address order (00_scope.md R9, 20_memory.md R66). -/
def cellsRead {α : Type} (d : α) (t : List (Nat × α)) (a n : Nat) : List α :=
  (List.range n).map fun i => cellGet d t (a + i)

/-- `MemWrite(S:a, n, v)`: the elements of a sequence in ascending address order (00_scope.md R9, 20_memory.md R66). -/
def cellsWrite {α : Type} [DecidableEq α] (d : α) : List (Nat × α) → Nat → List α → List (Nat × α)
  | t, _, [] => t
  | t, a, v :: vs => cellsWrite d (cellSet d t a v) (a + 1) vs

/-- The table of a space of bits. -/
def State.bits (s : State) : BitSpace → BitTable
  | .coil => s.coil
  | .di => s.di

/-- The table of a space of words. -/
def State.words (s : State) : WordSpace → WordTable
  | .hr => s.hr
  | .ir => s.ir

/-- `N_COIL`, `N_DI` (10_state.md R35). -/
def State.bitCount (s : State) : BitSpace → Nat
  | .coil => s.cfg.nCoil
  | .di => s.cfg.nDi

/-- `N_HR`, `N_IR` (10_state.md R35). -/
def State.wordCount (s : State) : WordSpace → Nat
  | .hr => s.cfg.nHr
  | .ir => s.cfg.nIr

/-- One bit element. -/
def State.bitAt (s : State) (sp : BitSpace) (a : Nat) : Bool := cellGet unlistedBit (s.bits sp) a

/-- One word element. -/
def State.wordAt (s : State) (sp : WordSpace) (a : Nat) : Word := cellGet unlistedWord (s.words sp) a

/-- `MemRead` of a space of bits. -/
def State.bitsRead (s : State) (sp : BitSpace) (a n : Nat) : List Bool := cellsRead unlistedBit (s.bits sp) a n

/-- `MemRead` of a space of words. -/
def State.wordsRead (s : State) (sp : WordSpace) (a n : Nat) : List Word := cellsRead unlistedWord (s.words sp) a n

/-- `MemWrite` of a space of bits. -/
def State.bitsWrite (s : State) (sp : BitSpace) (a : Nat) (vs : List Bool) : State :=
  match sp with
  | .coil => { s with coil := cellsWrite unlistedBit s.coil a vs }
  | .di => { s with di := cellsWrite unlistedBit s.di a vs }

/-- `MemWrite` of a space of words. -/
def State.wordsWrite (s : State) (sp : WordSpace) (a : Nat) (vs : List Word) : State :=
  match sp with
  | .hr => { s with hr := cellsWrite unlistedWord s.hr a vs }
  | .ir => { s with ir := cellsWrite unlistedWord s.ir a vs }

/-- All four tables are in canonical form. -/
def State.memoryWf (s : State) : Bool :=
  Memory.wf unlistedBit s.coil && Memory.wf unlistedBit s.di
    && Memory.wf unlistedWord s.hr && Memory.wf unlistedWord s.ir

end Sys2Proof.Machine
end

