-- ==== Sys2Proof/Machine/Environment.lean ====
section
/-! DEFINITION. The steps of the other agents (00_scope.md R7), which act before the engine's step of a tick (log 17), and the
reset tick (70_reset_and_hazards.md R300). -/

namespace Sys2Proof.Machine

/-- What the environment does in the coming tick: the head of the schedule, or a free value (log 5). -/
def State.input (s : State) : TickInput :=
  match s.env with
  | i :: _ => i
  | [] => Config.freeInput s.tick

/-- The application writes one element of the storage it owns (20_memory.md R77). "The model's tables are the storage" (10_state.md
R35), so a write has its effect whatever the counts are: 70_reset_and_hazards.md R305 asks no order between filling the
tables and presenting `cfg`. What a request reaches is bounded by the counts, in the handlers (log 10). -/
def applyAppWrite (w : AppWrite) (s : State) : State :=
  match w with
  | .bit sp a v => s.bitsWrite sp a.toNat [v]
  | .word sp a v => s.wordsWrite sp a.toNat [v]

/-- The application's step: its writes in order (20_memory.md R77). -/
def application : List AppWrite → State → State
  | [], s => s
  | w :: ws, s => application ws (applyAppWrite w s)

/-- The receive transport's step: arrived bytes join its queue (40_frame_receiver.md R131). -/
def receiveTransport (arrivals : List Byte) (s : State) : State := { s with rxQueue := s.rxQueue ++ arrivals }

/-- The transmit transport's step: the oldest taken bytes have left the link (10_state.md R38b). -/
def transmitTransport (n : Nat) (s : State) : State := { s with txPending := s.txPending.drop n }

/-- The tick begins: the schedule and the tick count advance, every output port is 0 until the step sets it. -/
def newTick (s : State) : State := { s with out := {}, tick := s.tick + 1, env := s.env.drop 1 }

/-- Everything that happens before the engine's step of a tick. -/
def beginTick (i : TickInput) (s : State) : State :=
  application i.app (newTick (transmitTransport i.txLeft (receiveTransport i.arrivals s)))

/-- The configurator's step: a tick with `rst` = 1 and `c` on the `cfg` port (70_reset_and_hazards.md R300, 10_state.md R39).
The tables and the transports' queues are not touched; the buffers are unspecified (log 2). -/
def resetTick (c : Cfg) (s : State) : State :=
  { s with
    phase := .idle
    rxBuf := (List.range s.build.rxBufCap).map (Config.freeRxByte s.tick)
    rxLen := 0
    txBuf := (List.range s.build.txBufCap).map (Config.freeTxByte s.tick)
    txLen := 0
    txIdx := 0
    hold := 0#32
    sil := 0#32
    txEnR := false
    pendHook := none
    cfg := c
    t15 := BitVec.ofNat 32 (charTimeout c)
    t35 := BitVec.ofNat 32 (frameTimeout c) }

/-- The transport's duty on `tx_done` (47_response_builder.md R236): it is 1 exactly when every taken byte has left the link.
A premise for claims that need it, not enforced by the step (log 18). -/
def State.doneTruthful (s : State) : Bool :=
  s.input.txDone == (s.txPending.drop s.input.txLeft).isEmpty

end Sys2Proof.Machine
end

