-- ==== Sys2Proof/Machine/Bytes.lean ====
section
/-! DEFINITION. Byte order and bit order (20_memory.md R67 to R70, 30_encoding.md R99, R102, R103). -/

namespace Sys2Proof

/-- `hi(w) = w[15:8]` (00_scope.md R8). -/
def hi (w : Word) : Byte := w.extractLsb' 8 8

/-- `lo(w) = w[7:0]` (00_scope.md R8). -/
def lo (w : Word) : Byte := w.extractLsb' 0 8

/-- `{h, l}`: the word whose high byte is `h` (00_scope.md R8 `BE16`, 20_memory.md R67). -/
def be16 (h l : Byte) : Word := h ++ l

/-- Words, each high byte first (20_memory.md R67, 30_encoding.md R103). -/
def wordBytes : List Word → List Byte
  | [] => []
  | w :: ws => hi w :: lo w :: wordBytes ws

/-- The words that a sequence of bytes holds, high byte first (30_encoding.md R103). -/
def bytesWords : List Byte → List Word
  | h :: l :: bs => be16 h l :: bytesWords bs
  | _ => []

/-- Bit `i mod 8` of byte `i div 8` (20_memory.md R69, 30_encoding.md R102). -/
def packedBit (data : List Byte) (i : Nat) : Bool := (data.getD (i / 8) 0#8).getLsbD (i % 8)

/-- The first `n` bits of packed data, least significant bit of the first byte first (30_encoding.md R102). -/
def unpackBits (n : Nat) (data : List Byte) : List Bool := (List.range n).map (packedBit data)

/-- The value of a list of bits, least significant first. -/
def bitsValue : List Bool → Nat
  | [] => 0
  | b :: bs => b.toNat + 2 * bitsValue bs

/-- `ceil(n / 8)`, "equal to `(V + 7) div 8`" (30_encoding.md R101). -/
def bitByteCount (n : Nat) : Nat := (n + 7) / 8

/-- Data byte `k` of packed bits: bit `j` is the element with offset `8k + j`, the bits above the last element are 0
(30_encoding.md R102, 20_memory.md R70). -/
def packByte (bits : List Bool) (k : Nat) : Byte := BitVec.ofNat 8 (bitsValue ((bits.drop (8 * k)).take 8))

/-- Packed bits (30_encoding.md R102). -/
def packBits (bits : List Bool) : List Byte := (List.range (bitByteCount bits.length)).map (packByte bits)

end Sys2Proof
end

