-- ==== Sys2Proof/Machine/Crc.lean ====
section
/-! DEFINITION. The CRC-16/Modbus generator (48_crc16.md). -/

namespace Sys2Proof

/-- One of the eight shifts of a byte: a logical right shift, then exclusive-or with 0xA001 when a 1 left (48_crc16.md R250). -/
def crcShift (c : Word) : Word := if c.getLsbD 0 then (c >>> 1) ^^^ 0xA001#16 else c >>> 1

/-- `n` shifts. -/
def crcShifts : Nat → Word → Word
  | 0, c => c
  | n + 1, c => crcShifts n (crcShift c)

/-- One byte enters the low 8 bits, then eight shifts (48_crc16.md R250). -/
def crcByte (c : Word) (b : Byte) : Word := crcShifts 8 (c ^^^ b.setWidth 16)

/-- `crc16(s)`: initial value 0xFFFF, no final exclusive-or (48_crc16.md R250). -/
def crc16 (s : List Byte) : Word := s.foldl crcByte 0xFFFF#16

/-- The two CRC bytes of a frame, low byte first (48_crc16.md R251, 20_memory.md R68). -/
def crcField (s : List Byte) : List Byte := [lo (crc16 s), hi (crc16 s)]

/-- The bit-serial formulation's register step, `fb = c[0] xor bit` (48_crc16.md R252). -/
def crcSerialBit (c : Word) (bit : Bool) : Word :=
  if (c.getLsbD 0).xor bit then (c >>> 1) ^^^ 0xA001#16 else c >>> 1

/-- A byte into the bit-serial register, least significant bit first (48_crc16.md R252). -/
def crcSerialByte (c : Word) (b : Byte) : Word :=
  ((List.range 8).map b.getLsbD).foldl crcSerialBit c

/-- The bit-serial formulation of the CRC (48_crc16.md R252; the rule of record is R250, `crc16`). -/
def crcSerial (s : List Byte) : Word := s.foldl crcSerialByte 0xFFFF#16

end Sys2Proof
end

