-- ==== Sys2Proof/Format.lean ====
section
/-! DEFINITION. The operand shapes of the request formats RQ8 and RQM (30_encoding.md R94, R95), with the forms of a
frame whose length does not fit its format but which still reaches its handler (R114, R115; log 8). -/

namespace Sys2Proof

/-- The payload of a request of format RQ8 (30_encoding.md R94). -/
inductive Rq8 where
  /-- The frame has 8 bytes: the address field `A` and the second field `V`. -/
  | fields (a v : Word)
  /-- The frame has another length (K2 of 42_dispatcher.md R172): the payload as it came. -/
  | missized (payload : List Byte)
  deriving DecidableEq, Repr

/-- The payload of a request of format RQM (30_encoding.md R95). -/
inductive Rqm where
  /-- The frame has at least 9 bytes: `A`, `V`, `BC` and the bytes between `BC` and the CRC, however many there are
  (their number is compared with `BC` by the handler's check K4, 42_dispatcher.md R174). -/
  | fields (a v : Word) (bc : Byte) (data : List Byte)
  /-- The frame has fewer than 9 bytes (K2): the payload as it came. -/
  | short (payload : List Byte)
  deriving DecidableEq, Repr

end Sys2Proof
end

