-- ==== Sys2Proof/Syntax.lean ====
section
/-! DEFINITION. The instruction set: the eight request functions (30_encoding.md R104), one constructor per row of
spec/opcode_table.json. Every constructor carries the unit byte `u` of its frame (30_encoding.md R91, R117 `u=<unit>`)
and its payload. -/

namespace Sys2Proof

/-- One Modbus request (30_encoding.md R104). -/
inductive Instr where
  /-- Read Coils, fc 0x01 (43_read_bits.md R190). -/
  | rc (u : Byte) (r : Rq8)
  /-- Read Discrete Inputs, fc 0x02 (43_read_bits.md R191). -/
  | rdi (u : Byte) (r : Rq8)
  /-- Read Holding Registers, fc 0x03 (44_read_registers.md R200). -/
  | rhr (u : Byte) (r : Rq8)
  /-- Read Input Registers, fc 0x04 (44_read_registers.md R201). -/
  | rir (u : Byte) (r : Rq8)
  /-- Write Single Coil, fc 0x05 (45_write_single.md R210). -/
  | wsc (u : Byte) (r : Rq8)
  /-- Write Single Register, fc 0x06 (45_write_single.md R211). -/
  | wsr (u : Byte) (r : Rq8)
  /-- Write Multiple Coils, fc 0x0F (46_write_multiple.md R220). -/
  | wmc (u : Byte) (r : Rqm)
  /-- Write Multiple Registers, fc 0x10 (46_write_multiple.md R221). -/
  | wmr (u : Byte) (r : Rqm)
  deriving DecidableEq, Repr

end Sys2Proof
end

