-- ==== Sys2Proof/WellFormed.lean ====
section
/-! DEFINITION. Which terms of Instr are requests a frame can hold. An 8-byte RQ8 frame is written with its fields, never as
a missized payload, and an RQM frame of 9 bytes or more never as a short one, so that each frame is one term; and the
frame fits the largest receive buffer (30_encoding.md R90 with `RX_BUF_CAP` at most 65535, 00_scope.md R5; log 8). -/

namespace Sys2Proof

/-- The longest frame any receive buffer delivers: `RX_BUF_CAP` - 1 (30_encoding.md R90) with `RX_BUF_CAP` at most 65535. -/
def maxFrame : Nat := 65534

/-- An RQ8 payload is its two fields, or a payload of another length than 4 that fits a frame. -/
def Rq8.wf : Rq8 → Bool
  | .fields _ _ => true
  | .missized p => p.length != 4 && p.length + 4 ≤ maxFrame

/-- An RQM payload is its fields with data that fits a frame, or a payload of fewer than 5 bytes. -/
def Rqm.wf : Rqm → Bool
  | .fields _ _ _ d => d.length + 9 ≤ maxFrame
  | .short p => p.length < 5

/-- A well-formed request. Any unit byte may stand in a frame (30_encoding.md R91). -/
def Instr.wf : Instr → Bool
  | .rc _ r => r.wf
  | .rdi _ r => r.wf
  | .rhr _ r => r.wf
  | .rir _ r => r.wf
  | .wsc _ r => r.wf
  | .wsr _ r => r.wf
  | .wmc _ r => r.wf
  | .wmr _ r => r.wf

end Sys2Proof
end

