-- ==== Sys2Proof/Decode.lean ====
section
/-! DEFINITION. The decoder, total on any bytes, and the encoder, both from the frame formats of 30_encoding.md. A frame is
`[unit][fc][payload...][crc_lo][crc_hi]` (R90); the function-code map is R104. -/

namespace Sys2Proof

/-- Why a byte sequence is no request of the table. -/
inductive Reject where
  /-- Fewer than `MIN_FRAME` bytes (41_request_validator.md R161). -/
  | tooShort
  /-- The last two bytes are not the CRC of the others (41_request_validator.md R162). -/
  | badCrc
  /-- The function-code byte is none of the eight (30_encoding.md R112). -/
  | unrecognizedFunction (u fc : Byte)
  deriving DecidableEq, Repr

/-- Byte `i` of a frame; the rules read only bytes that exist (10_state.md R23). -/
def byteAt (f : List Byte) (i : Nat) : Byte := f.getD i 0#8

/-- Bytes 2 to len-3 (30_encoding.md R90). -/
def framePayload (f : List Byte) : List Byte := (f.take (f.length - 2)).drop 2

/-- "CRC over all bytes except the trailing 2" against the received field, low byte first (41_request_validator.md R162). -/
def crcOk (f : List Byte) : Bool :=
  crc16 (f.take (f.length - 2)) == be16 (byteAt f (f.length - 1)) (byteAt f (f.length - 2))

/-- Format RQ8: four payload bytes are `A` and `V`, each high byte first (30_encoding.md R94, R99). -/
def decodeRq8 : List Byte → Rq8
  | [ah, al, vh, vl] => .fields (be16 ah al) (be16 vh vl)
  | p => .missized p

/-- Format RQM: `A`, `V`, `BC` and the data (30_encoding.md R95, R99). -/
def decodeRqm : List Byte → Rqm
  | ah :: al :: vh :: vl :: bc :: data => .fields (be16 ah al) (be16 vh vl) bc data
  | p => .short p

/-- The function-code map (30_encoding.md R104, R112): "looks at all 8 bits of byte 1 and at nothing else". -/
def decodeRequest (u fc : Byte) (p : List Byte) : Except Reject Instr :=
  if fc = 0x01#8 then .ok (.rc u (decodeRq8 p))
  else if fc = 0x02#8 then .ok (.rdi u (decodeRq8 p))
  else if fc = 0x03#8 then .ok (.rhr u (decodeRq8 p))
  else if fc = 0x04#8 then .ok (.rir u (decodeRq8 p))
  else if fc = 0x05#8 then .ok (.wsc u (decodeRq8 p))
  else if fc = 0x06#8 then .ok (.wsr u (decodeRq8 p))
  else if fc = 0x0F#8 then .ok (.wmc u (decodeRqm p))
  else if fc = 0x10#8 then .ok (.wmr u (decodeRqm p))
  else .error (.unrecognizedFunction u fc)

/-- The request a frame holds, its length and CRC already checked: byte 0, byte 1 and the payload (30_encoding.md R90). -/
def decodeBody (f : List Byte) : Except Reject Instr := decodeRequest (byteAt f 0) (byteAt f 1) (framePayload f)

/-- The decoder, on any bytes. -/
def decode (f : List Byte) : Except Reject Instr :=
  if f.length < minFrame then .error .tooShort
  else if crcOk f then decodeBody f
  else .error .badCrc

/-- Byte 1 of the request's frame (30_encoding.md R104). -/
def Instr.fc : Instr → Byte
  | .rc _ _ => 0x01#8
  | .rdi _ _ => 0x02#8
  | .rhr _ _ => 0x03#8
  | .rir _ _ => 0x04#8
  | .wsc _ _ => 0x05#8
  | .wsr _ _ => 0x06#8
  | .wmc _ _ => 0x0F#8
  | .wmr _ _ => 0x10#8

/-- Byte 0 of the request's frame (30_encoding.md R91). -/
def Instr.unit : Instr → Byte
  | .rc u _ => u
  | .rdi u _ => u
  | .rhr u _ => u
  | .rir u _ => u
  | .wsc u _ => u
  | .wsr u _ => u
  | .wmc u _ => u
  | .wmr u _ => u

/-- The payload bytes of format RQ8 (30_encoding.md R94). -/
def Rq8.payload : Rq8 → List Byte
  | .fields a v => [hi a, lo a, hi v, lo v]
  | .missized p => p

/-- The payload bytes of format RQM (30_encoding.md R95). -/
def Rqm.payload : Rqm → List Byte
  | .fields a v bc d => hi a :: lo a :: hi v :: lo v :: bc :: d
  | .short p => p

/-- The bytes between the function code and the CRC. -/
def Instr.payload : Instr → List Byte
  | .rc _ r => r.payload
  | .rdi _ r => r.payload
  | .rhr _ r => r.payload
  | .rir _ r => r.payload
  | .wsc _ r => r.payload
  | .wsr _ r => r.payload
  | .wmc _ r => r.payload
  | .wmr _ r => r.payload

/-- `body ++ CRC`, low byte first (30_encoding.md R93, R118 `CRC`). -/
def withCrc (body : List Byte) : List Byte := body ++ crcField body

/-- The encoder: the frame that the notation `<MNEMONIC> u=... a=... v=... d=...` stands for (30_encoding.md R117). -/
def encode (i : Instr) : List Byte := withCrc (i.unit :: i.fc :: i.payload)

/-- Byte `k` of a number, least significant byte first: the numbering of spec/opcode_table.json (log 7). -/
def tableByte (w k : Nat) : Byte := BitVec.ofNat 8 (w >>> (8 * k))

/-- How many bytes from byte 1 on the frame of a table word has before its CRC: the function code with the fixed fields of
its format and, for RQM, `BC` data bytes (30_encoding.md R94, R95); at least the bytes the word has (log 7). -/
def tableBytes (nbits w : Nat) : Nat :=
  if tableByte w 0 = 0x0F#8 ∨ tableByte w 0 = 0x10#8 then 6 + (tableByte w 5).toNat
  else if 1 ≤ (tableByte w 0).toNat ∧ (tableByte w 0).toNat ≤ 6 then 5
  else max 1 (nbits / 8)

/-- The frame of a table word: the unit byte and the CRC, which are "not part of the opcode" in spec/opcode_table.json, are
supplied; the word's bits are the bytes from byte 1, the function code, on, and bits it does not have are 0 (log 7). -/
def tableFrame (u : Byte) (nbits w : Nat) : List Byte :=
  withCrc (u :: (List.range (tableBytes nbits (w % 2 ^ nbits))).map (tableByte (w % 2 ^ nbits)))

/-- The instruction the decoder reads from a word of spec/opcode_table.json, in a frame for unit 1 (log 7). -/
def decodeTableWord (nbits w : Nat) : Option Instr :=
  match decode (tableFrame 1#8 nbits w) with
  | .ok i => some i
  | .error _ => none

end Sys2Proof
end

