-- ==== Sys2Proof/Machine/Flags.lean ====
section
/-! DEFINITION. The engine has no flags (10_state.md R30): "Three booleans exist only inside EXEC and are not registers". Here
is what they and the one-byte codes are computed from; and the port `tx_en`, a function of registers. -/

namespace Sys2Proof.Machine

/-- `bcast`: the request's unit byte is 0 (10_state.md R30, 41_request_validator.md R163). -/
def bcast (u : Byte) : Bool := u == 0#8

/-- The one-byte code of an exception (60_exceptions.md R270). -/
def Exc.code : Exc → Byte
  | .illegalFunction => 0x01#8
  | .illegalDataAddress => 0x02#8
  | .illegalDataValue => 0x03#8

/-- `fc | 0x80` (30_encoding.md R92). -/
def excFc (fc : Byte) : Byte := fc ||| 0x80#8

/-- `min(sil + 1, 2^32 - 1)` (40_frame_receiver.md R133, 10_state.md R27). -/
def satIncr (n : Word32) : Word32 := if n = BitVec.allOnes 32 then n else n + 1#32

/-- Port `tx_en` in a tick, from the registers after that tick's step: `HAS_TXEN` AND `tx_en_r` (47_response_builder.md R234). -/
def State.txEn (s : State) : Bool := s.cfg.hasTxEn && s.txEnR

end Sys2Proof.Machine
end

