-- ==== Sys2Proof/Machine/Operands.lean ====
section
/-! DEFINITION. The operand forms and the checks K1 to K4 every handler makes on them, in the fixed order of 42_dispatcher.md
R172; the first that fails ends the handler. -/

namespace Sys2Proof.Machine

/-- `lo ≤ V ≤ hi` of the quantity limits (42_dispatcher.md R175). -/
def quantityOk (limit : Nat) (v : Word) : Bool := 1 ≤ v.toNat && v.toNat ≤ limit

/-- The value check of Write Single Coil: "one of the two sentinel forms" (30_encoding.md R100). -/
def coilValueOk (v : Word) : Bool := v == 0x0000#16 || v == 0xFF00#16

/-- Write Single Register has no value check (45_write_single.md R211). -/
def anyValueOk (_ : Word) : Bool := true

/-- The quantity of a single write (42_dispatcher.md R175). -/
def quantityOne (_ : Word) : Nat := 1

/-- The quantity of a read or multiple write is `V`. -/
def quantityV (v : Word) : Nat := v.toNat

/-- `ceil(V / 8)`, the byte count of bits (30_encoding.md R101). -/
def bytesForBits (v : Word) : Nat := (v.toNat + 7) / 8

/-- `2 × V`, the byte count of words (30_encoding.md R101). -/
def bytesForWords (v : Word) : Nat := 2 * v.toNat

/-- K1 to K4 of an RQ8 request: `A` and `V`, or the exception (42_dispatcher.md R172 to R176). The sum is of naturals and
does not wrap (20_memory.md R63). -/
def checkRq8 (count : Nat) (quantity : Word → Nat) (valueOk : Word → Bool) (r : Rq8) : Except Exc (Word × Word) :=
  if count = 0 then .error .illegalDataAddress
  else
    match r with
    | .missized _ => .error .illegalDataValue
    | .fields a v =>
      if count < a.toNat + quantity v then .error .illegalDataAddress
      else if valueOk v then .ok (a, v)
      else .error .illegalDataValue

/-- K1 to K4 of an RQM request: `A`, `V` and the data bytes, or the exception (42_dispatcher.md R172 to R176). The frame
length test `n = 9 + BC` is that as many data bytes came as `BC` says. -/
def checkRqm (count limit : Nat) (bytesFor : Word → Nat) (r : Rqm) : Except Exc (Word × Word × List Byte) :=
  if count = 0 then .error .illegalDataAddress
  else
    match r with
    | .short _ => .error .illegalDataValue
    | .fields a v bc data =>
      if count < a.toNat + v.toNat then .error .illegalDataAddress
      else if quantityOk limit v && bc.toNat == bytesFor v && data.length == bc.toNat then .ok (a, v, data)
      else .error .illegalDataValue

/-- The payload of a read reply for bits: byte count, packed bits (30_encoding.md R96, R101, R102). -/
def bitReply (bits : List Bool) : List Byte := BitVec.ofNat 8 (bitByteCount bits.length) :: packBits bits

/-- The payload of a read reply for words: byte count, words high byte first (30_encoding.md R96, R101, R103). -/
def wordReply (ws : List Word) : List Byte := BitVec.ofNat 8 (2 * ws.length) :: wordBytes ws

/-- The payload of a write reply: bytes 2 to 5 of the request (30_encoding.md R97). -/
def writeReply (a v : Word) : List Byte := [hi a, lo a, hi v, lo v]

end Sys2Proof.Machine
end

