-- ==== Sys2Proof/Machine/Ops.lean ====
section
/-! DEFINITION. The named operations EXEC is made of: ending a transaction silently, loading a reply, taking an exception, the
normal end with its hook, the release that ends a transaction with a reply, and the accesses each pair of handlers shares. -/

namespace Sys2Proof.Machine

/-- `emit ev` (00_scope.md R10). -/
def emit (e : Event) (s : State) : State := { s with events := s.events ++ [e] }

/-- The end of a transaction without a reply: `rx_len <- 0`, `phase <- IDLE`, `sil` left as it is (42_dispatcher.md R177,
41_request_validator.md R164). -/
def endSilently (s : State) : State := { s with rxLen := 0, phase := .idle }

/-- `load_reply(body)` (42_dispatcher.md R181, 47_response_builder.md R230): the frame stands in the first bytes of `tx_buf`;
the bytes above `tx_len` keep what they held (log 12). -/
def loadReply (body : List Byte) (s : State) : State :=
  { s with
    txBuf := withCrc body ++ s.txBuf.drop (withCrc body).length
    txLen := (withCrc body).length
    txIdx := 0
    txEnR := true
    phase := .transmit }

/-- TAKING AN EXCEPTION (60_exceptions.md R272, R273; 42_dispatcher.md R177): for a broadcast nothing is sent, else the reply
`[unit][fc | 0x80][code]` is loaded. Nothing is saved: "there is no state to return to". -/
def raiseExc (u fc : Byte) (e : Exc) (s : State) : State :=
  if bcast u then emit (.bcastExc fc e) (endSilently s)
  else emit (.exc fc e) (loadReply [u, excFc fc, e.code] s)

/-- When a hook fires: in the EXEC tick or at the release (42_dispatcher.md R178). -/
inductive HookTime where
  | pre | post
  deriving DecidableEq, Repr

/-- The notification of a successful, not broadcast operation (42_dispatcher.md R178, R181). -/
def notify (time : HookTime) (h : Hook) (s : State) : State :=
  if s.cfg.hasHook then
    match time with
    | .pre => { s with out := { s.out with hook := some h } }
    | .post => { s with pendHook := some h }
  else s

/-- The normal end of a handler with payload `p` (42_dispatcher.md R177): for a broadcast nothing is sent and no hook fires,
else the reply `[unit][fc] ++ p` is loaded and the hook fires. -/
def complete (u fc : Byte) (p : List Byte) (time : HookTime) (h : Hook) (s : State) : State :=
  if bcast u then emit (.bcastOk fc) (endSilently s)
  else emit (.reply fc) (notify time h (loadReply (u :: fc :: p) s))

/-- A silent drop of a completed buffer (41_request_validator.md R164). -/
def dropFrame (e : Event) (s : State) : State := emit e (endSilently s)

/-- The RETURN: the release step that ends a transaction with a reply, normal or exception (47_response_builder.md R238,
60_exceptions.md R278). -/
def release (s : State) : State :=
  emit .release
    { s with
      txEnR := false
      sil := 0#32
      rxLen := 0
      phase := .idle
      out := { s.out with hook := s.pendHook }
      pendHook := none }

/-- Read Coils and Read Discrete Inputs (43_read_bits.md R190, R191): limit 2000, hook `pre`. -/
def readBitsRequest (sp : BitSpace) (u fc : Byte) (r : Rq8) (s : State) : State :=
  match checkRq8 (s.bitCount sp) quantityV (quantityOk 2000) r with
  | .error e => raiseExc u fc e s
  | .ok (a, v) => complete u fc (bitReply (s.bitsRead sp a.toNat v.toNat)) .pre ⟨fc, a, v⟩ s

/-- Read Holding Registers and Read Input Registers (44_read_registers.md R200, R201): limit 125, hook `pre`. -/
def readWordsRequest (sp : WordSpace) (u fc : Byte) (r : Rq8) (s : State) : State :=
  match checkRq8 (s.wordCount sp) quantityV (quantityOk 125) r with
  | .error e => raiseExc u fc e s
  | .ok (a, v) => complete u fc (wordReply (s.wordsRead sp a.toNat v.toNat)) .pre ⟨fc, a, v⟩ s

end Sys2Proof.Machine
end

