-- ==== Sys2Proof/Machine/ReadBits.lean ====
section
/-! DEFINITION. The meanings of Read Coils and Read Discrete Inputs (43_read_bits.md). -/

namespace Sys2Proof.Machine

/-- RC, fc 0x01 (43_read_bits.md R190). -/
def execRc (u : Byte) (r : Rq8) (s : State) : Host.Outcome State Fault Refusal :=
  .next (readBitsRequest .coil u 0x01#8 r s)

/-- RDI, fc 0x02 (43_read_bits.md R191). -/
def execRdi (u : Byte) (r : Rq8) (s : State) : Host.Outcome State Fault Refusal :=
  .next (readBitsRequest .di u 0x02#8 r s)

end Sys2Proof.Machine
end

