-- ==== Sys2Proof/Machine/ReadRegisters.lean ====
section
/-! DEFINITION. The meanings of Read Holding Registers and Read Input Registers (44_read_registers.md). -/

namespace Sys2Proof.Machine

/-- RHR, fc 0x03 (44_read_registers.md R200). -/
def execRhr (u : Byte) (r : Rq8) (s : State) : Host.Outcome State Fault Refusal :=
  .next (readWordsRequest .hr u 0x03#8 r s)

/-- RIR, fc 0x04 (44_read_registers.md R201). -/
def execRir (u : Byte) (r : Rq8) (s : State) : Host.Outcome State Fault Refusal :=
  .next (readWordsRequest .ir u 0x04#8 r s)

end Sys2Proof.Machine
end

