-- ==== Sys2Proof/Machine/WriteMultiple.lean ====
section
/-! DEFINITION. The meanings of Write Multiple Coils and Write Multiple Registers (46_write_multiple.md). -/

namespace Sys2Proof.Machine

/-- WMC, fc 0x0F: limit 1968, `BC = ceil(V / 8)` (46_write_multiple.md R220). -/
def execWmc (u : Byte) (r : Rqm) (s : State) : Host.Outcome State Fault Refusal :=
  match checkRqm (s.bitCount .coil) 1968 bytesForBits r with
  | .error e => .next (raiseExc u 0x0F#8 e s)
  | .ok (a, v, data) =>
    .next (complete u 0x0F#8 (writeReply a v) .post ⟨0x0F#8, a, v⟩
      (s.bitsWrite .coil a.toNat (unpackBits v.toNat data)))

/-- WMR, fc 0x10: limit 123, `BC = 2 × V` (46_write_multiple.md R221). -/
def execWmr (u : Byte) (r : Rqm) (s : State) : Host.Outcome State Fault Refusal :=
  match checkRqm (s.wordCount .hr) 123 bytesForWords r with
  | .error e => .next (raiseExc u 0x10#8 e s)
  | .ok (a, v, data) =>
    .next (complete u 0x10#8 (writeReply a v) .post ⟨0x10#8, a, v⟩ (s.wordsWrite .hr a.toNat (bytesWords data)))

end Sys2Proof.Machine
end

