-- ==== Sys2Proof/Machine/WriteSingle.lean ====
section
/-! DEFINITION. The meanings of Write Single Coil and Write Single Register (45_write_single.md). -/

namespace Sys2Proof.Machine

/-- WSC, fc 0x05: 0xFF00 is on, 0x0000 is off (45_write_single.md R210). -/
def execWsc (u : Byte) (r : Rq8) (s : State) : Host.Outcome State Fault Refusal :=
  match checkRq8 (s.bitCount .coil) quantityOne coilValueOk r with
  | .error e => .next (raiseExc u 0x05#8 e s)
  | .ok (a, v) =>
    .next (complete u 0x05#8 (writeReply a v) .post ⟨0x05#8, a, 1#16⟩ (s.bitsWrite .coil a.toNat [v == 0xFF00#16]))

/-- WSR, fc 0x06: every value may be stored (45_write_single.md R211). -/
def execWsr (u : Byte) (r : Rq8) (s : State) : Host.Outcome State Fault Refusal :=
  match checkRq8 (s.wordCount .hr) quantityOne anyValueOk r with
  | .error e => .next (raiseExc u 0x06#8 e s)
  | .ok (a, v) =>
    .next (complete u 0x06#8 (writeReply a v) .post ⟨0x06#8, a, 1#16⟩ (s.wordsWrite .hr a.toNat [v]))

end Sys2Proof.Machine
end

