-- ==== Sys2Proof/Machine/Dispatch.lean ====
section
/-! DEFINITION. The dispatcher's eight arms (42_dispatcher.md R171): an accepted request to its meaning. -/

namespace Sys2Proof.Machine

/-- What an accepted request does in its EXEC tick (42_dispatcher.md R170 to R178). -/
def exec (i : Instr) (s : State) : Host.Outcome State Fault Refusal :=
  match i with
  | .rc u r => Sys2Proof.Machine.execRc u r s
  | .rdi u r => Sys2Proof.Machine.execRdi u r s
  | .rhr u r => Sys2Proof.Machine.execRhr u r s
  | .rir u r => Sys2Proof.Machine.execRir u r s
  | .wsc u r => Sys2Proof.Machine.execWsc u r s
  | .wsr u r => Sys2Proof.Machine.execWsr u r s
  | .wmc u r => Sys2Proof.Machine.execWmc u r s
  | .wmr u r => Sys2Proof.Machine.execWmr u r s

end Sys2Proof.Machine
end

