-- ==== Sys2Proof/Machine/Validator.lean ====
section
/-! DEFINITION. The request validator (41_request_validator.md). -/

namespace Sys2Proof.Machine

/-- The validator's verdicts (41_request_validator.md R160). -/
inductive Verdict where
  | drop (reason : Event)
  | accept (isBcast : Bool)
  deriving DecidableEq, Repr

/-- `validate(f, n, UNIT_ID)` (41_request_validator.md R166): length, CRC, unit id, "in order". -/
def validate (unitId : Byte) (f : List Byte) : Verdict :=
  if f.length < minFrame then .drop .dropShort
  else if !crcOk f then .drop .dropCrc
  else if bcast (byteAt f 0) then .accept true
  else if unitId == noId then .accept false
  else if byteAt f 0 == unitId then .accept false
  else .drop .ignoreUnit

end Sys2Proof.Machine
end

