-- ==== Sys2Proof/Machine/Receiver.lean ====
section
/-! DEFINITION. The frame receiver's step in phases IDLE and RECEIVING (40_frame_receiver.md R140), and EXEC of a completed
buffer (42_dispatcher.md R170, R181). -/

namespace Sys2Proof.Machine

/-- The completed raw buffer `rx_buf[0 .. rx_len-1]` (10_state.md R23). -/
def State.frame (s : State) : List Byte := s.rxBuf.take s.rxLen

/-- The dispatcher on an accepted frame (42_dispatcher.md R171): the handler of the function code, or IllegalFunction. -/
def dispatchFrame (f : List Byte) (s : State) : Host.Outcome State Fault Refusal :=
  match decodeBody f with
  | .ok i => exec i s
  | .error _ => .next (raiseExc (byteAt f 0) (byteAt f 1) .illegalFunction s)

/-- EXEC (42_dispatcher.md R181). -/
def execFrame (s : State) : Host.Outcome State Fault Refusal :=
  match validate s.cfg.unitId s.frame with
  | .drop reason => .next (dropFrame reason s)
  | .accept _ => dispatchFrame s.frame s

/-- A byte in IDLE before `T35` ticks of silence: dropped, `sil <- 0` (40_frame_receiver.md R134). -/
def earlyByte (b : Byte) (s : State) : State := emit (.earlyByte b) { s with sil := 0#32 }

/-- A byte in IDLE after `T35` ticks of silence: the first of a frame (40_frame_receiver.md R135). -/
def firstByte (b : Byte) (s : State) : State :=
  { s with rxBuf := s.rxBuf.set 0 b, rxLen := 1, sil := 0#32, phase := .receiving }

/-- A byte in RECEIVING: appended; a buffer that reaches capacity is discarded (40_frame_receiver.md R137). -/
def nextByte (b : Byte) (s : State) : State :=
  let t := { s with rxBuf := s.rxBuf.set s.rxLen b, rxLen := s.rxLen + 1, sil := 0#32 }
  if t.rxLen = t.build.rxBufCap then emit .overflow (endSilently t) else t

/-- The receiver takes the byte it was shown (40_frame_receiver.md R132 to R137). -/
def receiveByte (b : Byte) (s : State) : State :=
  match s.phase with
  | .idle => if s.sil.toNat < s.t35.toNat then earlyByte b s else firstByte b s
  | _ => nextByte b s

/-- `rx_pop` = 1: the oldest byte leaves the transport's queue (40_frame_receiver.md R131, R132). -/
def popByte (rest : List Byte) (s : State) : State := { s with rxQueue := rest, out := { s.out with rxPop := true } }

/-- A tick without a byte counts one more tick of silence (40_frame_receiver.md R133). -/
def countSilence (s : State) : State := { s with sil := satIncr s.sil }

/-- A tick without a byte, `sil` already counted: complete, abandon, or wait (40_frame_receiver.md R136, R138, R139). -/
def receiveSilence (s : State) : Host.Outcome State Fault Refusal :=
  match s.phase with
  | .receiving =>
    if minFrame ≤ s.rxLen ∧ s.t15.toNat ≤ s.sil.toNat then execFrame s
    else if s.rxLen < minFrame ∧ s.t35.toNat ≤ s.sil.toNat then .next (emit .abandon (endSilently s))
    else .next s
  | _ => .next s

/-- `step_rx` (40_frame_receiver.md R140). -/
def receiveStep (s : State) : Host.Outcome State Fault Refusal :=
  match s.rxQueue with
  | b :: rest => .next (receiveByte b (popByte rest s))
  | [] => receiveSilence (countSilence s)

end Sys2Proof.Machine
end

