-- ==== Sys2Proof/Machine/Transmitter.lean ====
section
/-! DEFINITION. The response builder's step in phases TRANSMIT and FLUSH (47_response_builder.md R239). -/

namespace Sys2Proof.Machine

/-- TRANSMIT (47_response_builder.md R235): the byte is offered; a transport that is ready takes it. -/
def transmitStep (ready : Bool) (s : State) : State :=
  let b := byteAt s.txBuf s.txIdx
  let offered := { s with out := { s.out with tx := some b } }
  if ready then
    let taken := { offered with txPending := s.txPending ++ [b], txIdx := s.txIdx + 1 }
    if taken.txIdx = taken.txLen then { taken with hold := 0#32, phase := .flush } else taken
  else offered

/-- FLUSH (47_response_builder.md R237, R238). -/
def flushStep (done : Bool) (s : State) : State :=
  if !done then { s with hold := 0#32 }
  else if s.hold.toNat < s.cfg.flushHold.toNat then { s with hold := s.hold + 1#32 }
  else release s

end Sys2Proof.Machine
end

