-- ==== Sys2Proof/Machine/Tick.lean ====
section
/-! DEFINITION. One tick of the engine (10_state.md R20), and how a request is put where the next tick runs it (log 6). -/

namespace Sys2Proof.Machine

/-- The step selected by `phase` (10_state.md R20, R22). -/
def phaseStep (i : TickInput) (s : State) : Host.Outcome State Fault Refusal :=
  match s.phase with
  | .idle => receiveStep s
  | .receiving => receiveStep s
  | .transmit => .next (transmitStep i.txReady s)
  | .flush => .next (flushStep i.txDone s)

/-- A legal configuration and legal capacities (00_scope.md R6). -/
def State.legal (s : State) : Bool := legalBuild s.build && legalCfg s.cfg

/-- The engine's part of a tick: `rst` = 1 overrides everything (60_exceptions.md R275); an illegal `cfg` is refused (00_scope.md
R6; log 9). -/
def engineStep (i : TickInput) (s : State) : Host.Outcome State Fault Refusal :=
  match i.rst with
  | some c => .next (resetTick c s)
  | none => if s.legal then phaseStep i s else .refused .illegalConfig

/-- One tick: the other agents act, then the engine steps (00_scope.md R7, R11). -/
def engineTick (s : State) : Host.Outcome State Fault Refusal :=
  engineStep s.input (beginTick s.input s)

/-- A frame lies complete in `rx_buf` but for one tick of silence, and in that tick nothing arrives: the state whose next
tick runs EXEC on it (40_frame_receiver.md R138; log 6). -/
def placeFrame (f : List Byte) (s : State) : State :=
  { s with
    phase := .receiving
    rxBuf := f ++ s.rxBuf.drop f.length
    rxLen := f.length
    sil := s.t15 - 1#32
    rxQueue := []
    env := {} :: s.env }

/-- The unit byte of a placed request: the configured one, or 1 under the wildcard (log 6). -/
def placedUnit (s : State) : Byte := if s.cfg.unitId == noId then 1#8 else s.cfg.unitId

end Sys2Proof.Machine
end

