-- ==== Sys2Proof/Machine/Step.lean ====
section
/-! DEFINITION. The step of the machine, one tick of `clk`, and the placing of a word where the next tick runs it. -/

namespace Sys2Proof.Machine

/-- One step: one tick (10_state.md R20). -/
def step (s : State) : Host.Outcome State Fault Refusal := engineTick s

/-- `s` with the frame of a word of spec/opcode_table.json complete in `rx_buf`, so that the next tick runs it (logs 6, 7). -/
def State.withFetchWord (s : State) (nbits w : Nat) : State := placeFrame (tableFrame (placedUnit s) nbits w) s

end Sys2Proof.Machine
end

