-- ==== Sys2Proof/Safety.lean ====
section
/-! DEFINITION. What holds of every state a run reaches from reset: the invariants the spec gives (10_state.md R22 to R29, R34,
R37; 20_memory.md for the tables), in the terms the claims use. -/

namespace Sys2Proof.Machine

/-- The capacities are legal and the buffers have their capacity (10_state.md R23, R25, R37). -/
abbrev State.BuffersOk (s : State) : Prop :=
  legalBuild s.build = true ∧ s.rxBuf.length = s.build.rxBufCap ∧ s.txBuf.length = s.build.txBufCap

/-- The indices stay in the ranges of 10_state.md R24, R25. -/
abbrev State.IndicesOk (s : State) : Prop :=
  s.rxLen < s.build.rxBufCap ∧ s.txLen ≤ 255 ∧ s.txIdx ≤ s.txLen

/-- The column "Invariant while in it" of 10_state.md R22, for every phase. -/
abbrev State.PhaseOk (s : State) : Prop :=
  (s.phase = .idle → s.rxLen = 0 ∧ s.txEnR = false) ∧
  (s.phase = .receiving → 1 ≤ s.rxLen ∧ s.txEnR = false) ∧
  (s.phase = .transmit → s.txIdx < s.txLen ∧ s.txEnR = true) ∧
  (s.phase = .flush → s.txIdx = s.txLen ∧ s.txEnR = true)

/-- "`pend_hook.valid` is 0 whenever EXEC starts": a write hook is due only while its reply is sent (42_dispatcher.md R181); and
only when `HAS_HOOK` = 1 (10_state.md R29, 42_dispatcher.md R178). -/
abbrev State.HookOk (s : State) : Prop :=
  (s.phase = .idle ∨ s.phase = .receiving → s.pendHook = none) ∧ (s.pendHook ≠ none → s.cfg.hasHook = true)

/-- `T15` and `T35` are what the timing calculator derives from the sampled `cfg` (10_state.md R34, 49_timing_calculator.md R264;
what that is for an illegal record without a quotient or a value of 32 bits is the model's choice, log 16). -/
abbrev State.TimingOk (s : State) : Prop :=
  s.t15 = BitVec.ofNat 32 (charTimeout s.cfg) ∧ s.t35 = BitVec.ofNat 32 (frameTimeout s.cfg)

/-- The tables are in canonical form (log 3). -/
abbrev State.TablesOk (s : State) : Prop := s.memoryWf = true

/-- The invariant of the machine. -/
abbrev State.Inv (s : State) : Prop :=
  s.BuffersOk ∧ s.IndicesOk ∧ s.PhaseOk ∧ s.HookOk ∧ s.TimingOk ∧ s.TablesOk

/-- `t` is reached from `s` in some number of ticks. -/
inductive Reach : State → State → Prop where
  | here (s : State) : Reach s s
  | tick {s m t : State} : step s = .next m → Reach m t → Reach s t

/-- `t` is reached from `s` within a transaction: no state on the way, `s` and `t` included, is in IDLE. -/
inductive Busy : State → State → Prop where
  | here {s : State} : s.phase ≠ .idle → Busy s s
  | tick {s m t : State} : s.phase ≠ .idle → step s = .next m → Busy m t → Busy s t

/-- The transport's duty "eventually raise `tx_ready` while bytes are offered" (47_response_builder.md R236), in every tick of
the transaction `s` is in; a reset that ends the offer discharges it. -/
def ReadyDuty (s : State) : Prop :=
  ∀ t, Busy s t → t.phase = .transmit → ∃ u, Reach t u ∧ (u.phase ≠ .transmit ∨ u.input.txReady = true)

/-- The transport's duty "eventually raise `tx_done` after the last byte" (47_response_builder.md R236). -/
def DoneDuty (s : State) : Prop :=
  ∀ t, Busy s t → t.phase = .flush → ∃ u, Reach t u ∧ (u.phase ≠ .flush ∨ u.input.txDone = true)

/-- The transport's duty "`tx_done` = 1 exactly when every byte it has taken has completely left the link"
(47_response_builder.md R236), in every tick of the transaction. -/
def TruthDuty (s : State) : Prop := ∀ t, Busy s t → t.doneTruthful = true

/-- The duties of the transmit transport that are no matter of form (47_response_builder.md R236): premises on the environment
for the claims that need them (60_exceptions.md R279), never enforced by a step. That it takes only offered bytes and sends
them in order is the form of `transmitStep` and `txPending`; the receive transport's duties (40_frame_receiver.md R131) are
the form of `rxQueue` (log 18). -/
def TransportMeetsDuties (s : State) : Prop := ReadyDuty s ∧ DoneDuty s ∧ TruthDuty s

end Sys2Proof.Machine
end

