-- ==== Sys2Proof/Certificates/Slice0/Obligations.lean ====
section
/-! DEFINITION. The statements for the provers, from the numbered rules of spec/. The vocabulary they share comes first: the
states a rule describes are written out here as record updates, not by the operations of Machine/Ops.lean. -/

namespace Sys2Proof.Claims

open Sys2Proof.Machine

/-- A transaction ended without a reply: `rx_len <- 0`, `phase <- IDLE`, one label, nothing else. -/
def silently (e : Event) (s : State) : State := { s with rxLen := 0, phase := .idle, events := s.events ++ [e] }

/-- A reply of body `body` is loaded: body and CRC, low byte first, are the first bytes of `tx_buf`, nothing else. -/
def replying (body : List Byte) (e : Event) (s : State) : State :=
  { s with
    txBuf := body ++ [lo (crc16 body), hi (crc16 body)]
    txLen := body.length + 2
    txIdx := 0
    txEnR := true
    phase := .transmit
    events := s.events ++ [e] }

/-- A read of payload `p` ended normally: silence for a broadcast, else the reply and the hook in this tick. -/
def readEnds (u fc : Byte) (a v : Word) (p : List Byte) (s : State) : State :=
  if u = 0#8 then silently (.bcastOk fc) s
  else
    { replying (u :: fc :: p) (.reply fc) s with
      out := { s.out with hook := if s.cfg.hasHook then some ⟨fc, a, v⟩ else s.out.hook } }

/-- A write of quantity `q` ended normally (`s` holds the tables as written): silence for a broadcast, else the reply that
repeats bytes 0 to 5 of the request, and the hook that waits for the release. -/
def writeEnds (u fc : Byte) (a v q : Word) (s : State) : State :=
  if u = 0#8 then silently (.bcastOk fc) s
  else
    { replying [u, fc, hi a, lo a, hi v, lo v] (.reply fc) s with
      pendHook := if s.cfg.hasHook then some ⟨fc, a, q⟩ else s.pendHook }

/-- The codes of 60_exceptions.md R270. -/
def codeOf : Exc → Byte
  | .illegalFunction => 0x01#8
  | .illegalDataAddress => 0x02#8
  | .illegalDataValue => 0x03#8

/-- A request raised exception `e`: silence for a broadcast, else the reply `[unit][fc | 0x80][code]`; no table, no hook. -/
def raises (u fc : Byte) (e : Exc) (s : State) : State :=
  if u = 0#8 then silently (.bcastExc fc e) s else replying [u, fc ||| 0x80#8, codeOf e] (.exc fc e) s

/-- The outcome is the next state `t`, but for the bytes of `tx_buf` at and above `tx_len`, which no rule reads and which the
spec leaves at any value (93_implementation_defined.md U3; what the model does with them is log 12). -/
def Reaches (o : Host.Outcome State Fault Refusal) (t : State) : Prop :=
  ∃ rest : List Byte, o = .next { t with txBuf := t.txBuf.take t.txLen ++ rest }

/-- The other agents have acted, giving `m`; `rst` is 0 and the configuration is legal: the engine steps from `m`. -/
def Ready (s m : State) : Prop := beginTick s.input s = m ∧ s.input.rst = none ∧ m.legal = true

/-- One more tick of silence, saturating (40_frame_receiver.md R133). -/
def Counted (m : State) (n : Word32) : Prop := n.toNat = min (m.sil.toNat + 1) (2 ^ 32 - 1)

/-- No byte is present and this tick's silence completes the buffered frame (40_frame_receiver.md R138). -/
def Completes (m : State) : Prop :=
  m.phase = .receiving ∧ m.rxQueue = [] ∧ 4 ≤ m.rxLen ∧ m.t15.toNat ≤ min (m.sil.toNat + 1) (2 ^ 32 - 1)

/-- What the last of the application's writes `ws` to bit element `a` of space `sp` stores; none when no write is to it. -/
def lastBit (sp : BitSpace) (a : Nat) (ws : List AppWrite) : Option Bool :=
  ws.reverse.findSome? fun
    | .bit sq b v => if sq = sp ∧ b.toNat = a then some v else none
    | .word _ _ _ => none

/-- What the last of the application's writes `ws` to word element `a` of space `sp` stores; none when no write is to it. -/
def lastWord (sp : WordSpace) (a : Nat) (ws : List AppWrite) : Option Word :=
  ws.reverse.findSome? fun
    | .word sq b v => if sq = sp ∧ b.toNat = a then some v else none
    | .bit _ _ _ => none

/-- No reset comes in this tick. Bytes may arrive and may leave, and the application may write. -/
def Undisturbed (i : TickInput) : Prop := i.rst = none

/-- An undisturbed tick in which no byte arrives. -/
def Quiet (i : TickInput) : Prop := Undisturbed i ∧ i.arrivals = []

end Sys2Proof.Claims

open Sys2Proof Sys2Proof.Machine Sys2Proof.Claims

/-! ## Encoding -/

/-- One frame of each family, its bytes written out from 30_encoding.md R94, R95, decodes to the request it stands for; a
frame with fc 0x07 (R112), one with its CRC bytes swapped and one of three bytes do not decode. -/
def Obligations.SampleFramesDecode : Prop :=
  decode [0x01#8, 0x01#8, 0x00#8, 0x02#8, 0x00#8, 0x0A#8, 0x1D#8, 0xCD#8] = .ok (.rc 1#8 (.fields 2#16 10#16)) ∧
  decode [0x01#8, 0x04#8, 0x00#8, 0x01#8, 0x00#8, 0x03#8, 0xE1#8, 0xCB#8] = .ok (.rir 1#8 (.fields 1#16 3#16)) ∧
  decode [0x01#8, 0x05#8, 0x00#8, 0x04#8, 0xFF#8, 0x00#8, 0xCD#8, 0xFB#8] = .ok (.wsc 1#8 (.fields 4#16 0xFF00#16)) ∧
  decode [0x01#8, 0x10#8, 0x00#8, 0x01#8, 0x00#8, 0x02#8, 0x04#8, 0x12#8, 0x34#8, 0xAB#8, 0xCD#8, 0xC8#8, 0x70#8] =
    .ok (.wmr 1#8 (.fields 1#16 2#16 4#8 [0x12#8, 0x34#8, 0xAB#8, 0xCD#8])) ∧
  decode [0x01#8, 0x07#8, 0x41#8, 0xE2#8] = .error (.unrecognizedFunction 1#8 7#8) ∧
  decode [0x01#8, 0x03#8, 0x00#8, 0x00#8, 0x00#8, 0x0A#8, 0xCD#8, 0xC5#8] = .error .badCrc ∧
  decode [0x01#8, 0x03#8, 0x00#8] = .error .tooShort

/-- Decode and encode agree: every well-formed request, with every operand, is read back from its frame. -/
def Obligations.DecodeOfEncode : Prop := ∀ i : Instr, i.wf = true → decode (encode i) = .ok i

/-- The other direction: a frame of a size some buffer can deliver that decodes is the frame of the request it decodes to, and
that request is well-formed; so no two frames decode to the same request. -/
def Obligations.EncodeOfDecode : Prop :=
  ∀ (f : List Byte) (i : Instr), f.length ≤ 65534 → decode f = .ok i → encode i = f ∧ i.wf = true

/-- The decoder rejects exactly the frames that are too short, whose CRC does not match, or whose function code is none of
the eight, and names which. -/
def Obligations.DecodeRejectsByName : Prop :=
  ∀ f : List Byte,
    (decode f = .error .tooShort ↔ f.length < 4) ∧
    (decode f = .error .badCrc ↔ 4 ≤ f.length ∧ crcOk f = false) ∧
    ∀ u fc : Byte, decode f = .error (.unrecognizedFunction u fc) ↔
      4 ≤ f.length ∧ crcOk f = true ∧ u = byteAt f 0 ∧ fc = byteAt f 1 ∧
        fc ∉ [0x01#8, 0x02#8, 0x03#8, 0x04#8, 0x05#8, 0x06#8, 0x0F#8, 0x10#8]

/-! ## CRC -/

/-- The bit-serial formulation of 48_crc16.md R252 computes `crc16` (the spec marks R252 as general knowledge). -/
def Obligations.CrcSerialAgrees : Prop := ∀ s : List Byte, crcSerial s = crc16 s

/-- "A frame followed by its own correct CRC bytes (low first) has `crc16` of the whole equal to 0x0000" (48_crc16.md R253,
marked derived there). -/
def Obligations.CrcOfWholeFrameIsZero : Prop :=
  ∀ s : List Byte, crc16 (s ++ [lo (crc16 s), hi (crc16 s)]) = 0x0000#16

/-- Every single-bit flip of a frame that passes the length and CRC checks is dropped for its CRC, whatever the unit id: bit
`j` of byte `k`, of the body or of the CRC field (48_crc16.md R254). -/
def Obligations.SingleBitFlipIsDropped : Prop :=
  ∀ (unitId : Byte) (f : List Byte) (k j : Nat), 4 ≤ f.length → crcOk f = true → k < f.length → j < 8 →
    validate unitId (f.set k (byteAt f k ^^^ (1#8 <<< j))) = .drop .dropCrc

/-! ## Timing calculator -/

/-- `T15` and `T35` are the least numbers of ticks that are neither shorter than 1.5 and 3.5 character times nor below their
floors (49_timing_calculator.md R261, R262; rounding and floors are the spec's decision D21). -/
def Obligations.TimeoutsAreLeastNotShorter : Prop :=
  ∀ (c : Cfg) (n : Nat), 1 ≤ c.baud.toNat →
    (charTimeout c ≤ n ↔
      3 * (1 + c.dataBits + c.parityBits + c.stopBits) * c.clkHz.toNat ≤ 2 * c.baud.toNat * n ∧ c.t15Floor ≤ n) ∧
    (frameTimeout c ≤ n ↔
      7 * (1 + c.dataBits + c.parityBits + c.stopBits) * c.clkHz.toNat ≤ 2 * c.baud.toNat * n ∧ c.t35Floor ≤ n)

/-- In a legally configured state whose timing registers were derived at reset, `T15` and `T35` hold the calculator's values
in 32 bits, and 1 ≤ `T15` ≤ `T35` (10_state.md R34). -/
def Obligations.TimeoutRegistersOrdered : Prop :=
  ∀ s : State, s.TimingOk → s.legal = true →
    s.t15.toNat = charTimeout s.cfg ∧ s.t35.toNat = frameTimeout s.cfg ∧ 1 ≤ s.t15.toNat ∧ s.t15.toNat ≤ s.t35.toNat

/-! ## The tick: other agents, reset, configuration -/

/-- A tick begins: arrived bytes join the receive queue, bytes that left the link leave the
transmit queue, the outputs are cleared, the schedule and the tick count advance, table contents may change (and stay
canonical), nothing else does; and the step of a tick with that input is the engine's part from there, so that this is all
the step adds before it. The order within a tick is the model's (log 17), so are clearing the outputs that only hold for one
tick (log 13) and the schedule and tick count (log 5). -/
def Obligations.OtherAgentsActFirst : Prop :=
  ∀ (s : State) (i : TickInput),
    ∃ m, beginTick i s = m ∧
      m = { s with
        coil := m.coil, di := m.di, hr := m.hr, ir := m.ir
        rxQueue := s.rxQueue ++ i.arrivals
        txPending := s.txPending.drop i.txLeft
        out := {}
        tick := s.tick + 1
        env := s.env.drop 1 } ∧
      (s.memoryWf = true → m.memoryWf = true) ∧
      (s.input = i → step s = engineStep i m)

/-- After the application's part of a tick every element of the four tables holds what the last of its writes to that element
stored, and an element it does not write holds what it held, whatever the counts are (20_memory.md R77; that the counts do not
bound the writes is log 10); a tick in which the application writes nothing leaves the four tables as they are. -/
def Obligations.ApplicationWriteIsSeen : Prop :=
  ∀ (s : State) (i : TickInput), ∃ m, beginTick i s = m ∧
    (i.app = [] → m.coil = s.coil ∧ m.di = s.di ∧ m.hr = s.hr ∧ m.ir = s.ir) ∧
    (s.memoryWf = true →
      (∀ sp a, m.bitAt sp a = (lastBit sp a i.app).getD (s.bitAt sp a)) ∧
      (∀ sp a, m.wordAt sp a = (lastWord sp a i.app).getD (s.wordAt sp a)))

/-- The start-up of 70_reset_and_hazards.md R305 in one reset tick: the application's writes, any number of them, and the new
`cfg` may come in the same tick, and after it every element holds what the last of the writes to it stored, or what it held,
whatever the counts were before and whatever the sampled counts are (log 10, and log 17 for the order within the tick). -/
def Obligations.TablesAreFilledInAnyOrderWithReset : Prop :=
  ∀ (s : State) (c : Cfg), s.input.rst = some c →
    ∃ t, step s = .next t ∧ t.cfg = c ∧
      (s.input.app = [] → t.coil = s.coil ∧ t.di = s.di ∧ t.hr = s.hr ∧ t.ir = s.ir) ∧
      (s.memoryWf = true →
        (∀ sp a, t.bitAt sp a = (lastBit sp a s.input.app).getD (s.bitAt sp a)) ∧
        (∀ sp a, t.wordAt sp a = (lastWord sp a s.input.app).getD (s.wordAt sp a)))

/-- A tick with `rst` = 1, from any state with any legal or illegal record on the `cfg` port: the registers of 10_state.md R39
take their reset values, `cfg` is sampled and `T15`, `T35` derived, the outputs are 0, the tables and the receive queue are as
the other agents left them and no label is emitted (70_reset_and_hazards.md R300, the spec's decision D25). That the capacities
stay is log 15 (DEDUCED), that the unsent bytes stay is log 18 (DEDUCED), the history is the model's own (log 11). For an illegal
record: that the tick samples it is log 9 (DEDUCED), and what `T15` and `T35` hold when the value does not fit 32 bits (its low
32) or when `BAUD` is 0 (the floors, the division having no value in the spec) is log 16 (DESIGN CHOICE). -/
def Obligations.ResetTickResets : Prop :=
  ∀ (s m : State) (c : Cfg), beginTick s.input s = m → s.input.rst = some c →
    ∃ t, step s = .next t ∧
      t.phase = .idle ∧ t.rxLen = 0 ∧ t.txLen = 0 ∧ t.txIdx = 0 ∧ t.hold = 0#32 ∧ t.sil = 0#32 ∧ t.txEnR = false ∧
      t.pendHook = none ∧ t.cfg = c ∧ t.t15 = BitVec.ofNat 32 (charTimeout c) ∧ t.t35 = BitVec.ofNat 32 (frameTimeout c) ∧
      t.build = m.build ∧ t.out = {} ∧ t.txEn = false ∧
      t.coil = m.coil ∧ t.di = m.di ∧ t.hr = m.hr ∧ t.ir = m.ir ∧
      t.rxQueue = m.rxQueue ∧ t.txPending = m.txPending ∧ t.events = m.events

/-- While `rst` is 0 no step changes `cfg`, `T15`, `T35` or the build-time constants (10_state.md R31, 70_reset_and_hazards.md
R303, the spec's decision D26). -/
def Obligations.ConfigurationIsFixedWhileRunning : Prop :=
  ∀ s t : State, step s = .next t → s.input.rst = none →
    t.cfg = s.cfg ∧ t.t15 = s.t15 ∧ t.t35 = s.t35 ∧ t.build = s.build

/-- A tick with `rst` = 0 under an illegal configuration is refused (00_scope.md R6, the spec's decision D15; when the refusal
comes is log 9). -/
def Obligations.IllegalConfigurationIsRefused : Prop :=
  ∀ s m : State, beginTick s.input s = m → s.input.rst = none → m.legal = false →
    step s = .refused .illegalConfig

/-- Nothing the engine does is fatal: a legally configured machine has a next state in every tick, whatever its registers, buffers,
queues and inputs, and so has any machine in a tick with `rst` = 1 (60_exceptions.md R279, 10_state.md R20). -/
def Obligations.EveryTickHasANextState : Prop :=
  ∀ s : State, s.legal = true ∨ s.input.rst ≠ none → ∃ t, step s = .next t

/-! ## Frame receiver -/

/-- IDLE, a byte, at least `T35` ticks of silence before it: the first byte of a new frame (40_frame_receiver.md R135). -/
def Obligations.FirstByteIsAccepted : Prop :=
  ∀ (s m : State) (b : Byte) (q : List Byte), Ready s m → m.phase = .idle → m.rxQueue = b :: q →
    m.t35.toNat ≤ m.sil.toNat →
    step s = .next { m with
      rxQueue := q, out := { m.out with rxPop := true }
      rxBuf := m.rxBuf.set 0 b, rxLen := 1, sil := 0#32, phase := .receiving }

/-- IDLE, no byte: `sil <- min(sil + 1, 2^32 - 1)`, nothing else changes (40_frame_receiver.md R136). -/
def Obligations.IdleSilenceIsCounted : Prop :=
  ∀ s m : State, Ready s m → m.phase = .idle → m.rxQueue = [] →
    ∃ n, Counted m n ∧ step s = .next { m with sil := n }

/-- IDLE, a byte before `T35` ticks of silence: consumed and thrown away, the silence restarts (40_frame_receiver.md R134; its
reading of "the buffer is discarded" is the spec's decision D7). -/
def Obligations.EarlyByteIsDropped : Prop :=
  ∀ (s m : State) (b : Byte) (q : List Byte), Ready s m → m.phase = .idle → m.rxQueue = b :: q →
    m.sil.toNat < m.t35.toNat →
    step s = .next { m with
      rxQueue := q, out := { m.out with rxPop := true }, sil := 0#32, events := m.events ++ [.earlyByte b] }

/-- RECEIVING, a byte: appended at `rx_len` whatever the silence was; the byte that fills the buffer discards it
(40_frame_receiver.md R137, the spec's decisions D4, D9). -/
def Obligations.NextByteIsAppendedOrOverflows : Prop :=
  ∀ (s m : State) (b : Byte) (q : List Byte), Ready s m → m.phase = .receiving → m.rxQueue = b :: q →
    step s = .next
      (if m.rxLen + 1 = m.build.rxBufCap then
        { m with
          rxQueue := q, out := { m.out with rxPop := true }, rxBuf := m.rxBuf.set m.rxLen b
          rxLen := 0, sil := 0#32, phase := .idle, events := m.events ++ [.overflow] }
      else
        { m with
          rxQueue := q, out := { m.out with rxPop := true }, rxBuf := m.rxBuf.set m.rxLen b
          rxLen := m.rxLen + 1, sil := 0#32 })

/-- RECEIVING, no byte, fewer than 4 bytes buffered: the silence is counted; at `T35` the buffer is abandoned, with `sil`
kept (40_frame_receiver.md R139, the spec's decision D8). -/
def Obligations.ShortBufferWaitsOrIsAbandoned : Prop :=
  ∀ s m : State, Ready s m → m.phase = .receiving → m.rxQueue = [] → m.rxLen < 4 →
    ∃ n, Counted m n ∧ step s = .next
      (if m.t35.toNat ≤ n.toNat then silently .abandon { m with sil := n } else { m with sil := n })

/-- RECEIVING, no byte, at least 4 bytes buffered, the silence still below `T15`: only the silence is counted
(40_frame_receiver.md R138). -/
def Obligations.UnfinishedFrameWaits : Prop :=
  ∀ s m : State, Ready s m → m.phase = .receiving → m.rxQueue = [] → 4 ≤ m.rxLen →
    min (m.sil.toNat + 1) (2 ^ 32 - 1) < m.t15.toNat →
    ∃ n, Counted m n ∧ step s = .next { m with sil := n }

/-- THE STEP RUNS THE DECODED INSTRUCTION: when the completed frame decodes to a well-formed request that is a broadcast or
addressed to this unit, the step is that request's meaning, at the state the other agents left with this tick's silence
counted. -/
def Obligations.StepRunsDecodedRequest : Prop :=
  ∀ (s m : State) (i : Instr), Ready s m → Completes m →
    decode (m.rxBuf.take m.rxLen) = .ok i → i.wf = true →
    (i.unit = 0#8 ∨ m.cfg.unitId = 0xFF#8 ∨ i.unit = m.cfg.unitId) →
    ∃ n, Counted m n ∧ step s = exec i { m with sil := n }

/-- A byte is consumed in exactly the ticks with `rst` = 0, phase IDLE or RECEIVING and a byte in the queue; then the oldest
leaves the queue, else the queue keeps everything, in TRANSMIT and FLUSH in particular (40_frame_receiver.md R132, the
spec's decision D3). -/
def Obligations.ByteConsumedExactlyWhenReceiving : Prop :=
  ∀ s t : State, step s = .next t →
    (t.out.rxPop = true ↔
      s.input.rst = none ∧ (s.phase = .idle ∨ s.phase = .receiving) ∧ s.rxQueue ++ s.input.arrivals ≠ []) ∧
    t.rxQueue = if t.out.rxPop then (s.rxQueue ++ s.input.arrivals).drop 1 else s.rxQueue ++ s.input.arrivals

/-- A machine with at least 4 buffered bytes and `sil` = 0 that sees `n` ticks without a byte, fewer than `T15`, has counted them
and still holds the frame unchanged, whatever the application writes meanwhile; and after `T15` - 1 of them the next such tick
completes the frame: completion comes in the `T15`-th silent tick and no earlier (40_frame_receiver.md R141). -/
def Obligations.FrameHeldUntilT15 : Prop :=
  ∀ (is rest : List TickInput) (s : State), s.env = is ++ rest → (∀ i ∈ is, Quiet i) → s.legal = true →
    s.phase = .receiving → s.rxQueue = [] → 4 ≤ s.rxLen → s.sil = 0#32 → is.length < s.t15.toNat →
    ∃ t, Sys2Proof.core.run is.length s = .next t ∧ t.phase = .receiving ∧ t.sil.toNat = is.length ∧
      t.rxLen = s.rxLen ∧ t.rxBuf = s.rxBuf ∧ t.rxQueue = [] ∧ t.events = s.events ∧
      (∀ j after, is.length + 1 = s.t15.toNat → rest = j :: after → Quiet j → ∃ m, Ready t m ∧ Completes m)

/-! ## Validator and dispatcher -/

/-- The validator's verdict on any buffer, in its order: length, CRC, unit id; unit 0 is always a broadcast, the wildcard
accepts every other unit byte and is never compared (41_request_validator.md R166, marked derived there). -/
def Obligations.ValidatorVerdict : Prop :=
  ∀ (unitId : Byte) (f : List Byte),
    (f.length < 4 → validate unitId f = .drop .dropShort) ∧
    (4 ≤ f.length → crcOk f = false → validate unitId f = .drop .dropCrc) ∧
    (4 ≤ f.length → crcOk f = true →
      (byteAt f 0 = 0#8 → validate unitId f = .accept true) ∧
      (byteAt f 0 ≠ 0#8 → unitId = 0xFF#8 → validate unitId f = .accept false) ∧
      (byteAt f 0 ≠ 0#8 → unitId ≠ 0xFF#8 → byteAt f 0 = unitId → validate unitId f = .accept false) ∧
      (byteAt f 0 ≠ 0#8 → unitId ≠ 0xFF#8 → byteAt f 0 ≠ unitId → validate unitId f = .drop .ignoreUnit))

/-- What a drop does: `rx_len <- 0`, `phase <- IDLE`; `sil`, `tx_en_r`, `tx_buf`, `pend_hook`, the tables and every output
port are untouched, no byte is offered (41_request_validator.md R164). -/
def Obligations.DroppedFrameLeavesNoTrace : Prop :=
  ∀ (s m : State) (e : Event), Ready s m → Completes m → validate m.cfg.unitId (m.rxBuf.take m.rxLen) = .drop e →
    ∃ n, Counted m n ∧ m.out = {} ∧ step s = .next (silently e { m with sil := n })

/-- An accepted frame whose function code is none of the eight raises IllegalFunction, whatever its length and payload:
exception 0x01 to an addressed request, nothing to a broadcast, no table and no hook (30_encoding.md R112). -/
def Obligations.UnrecognizedFunctionIsAnswered : Prop :=
  ∀ (s m : State) (b : Bool), Ready s m → Completes m →
    validate m.cfg.unitId (m.rxBuf.take m.rxLen) = .accept b →
    byteAt (m.rxBuf.take m.rxLen) 1 ∉ [0x01#8, 0x02#8, 0x03#8, 0x04#8, 0x05#8, 0x06#8, 0x0F#8, 0x10#8] →
    ∃ n, Counted m n ∧ Reaches (step s)
      (raises (byteAt (m.rxBuf.take m.rxLen) 0) (byteAt (m.rxBuf.take m.rxLen) 1) .illegalFunction { m with sil := n })

/-- No reply is built for a broadcast request, a dropped frame or an ignored frame: `tx_buf`, `tx_len`, `tx_idx`, `tx_en_r`
are not written and `phase` goes to IDLE (47_response_builder.md R233). -/
def Obligations.NoReplyToBroadcastOrDrop : Prop :=
  ∀ s m : State, Ready s m → Completes m →
    ((∃ e, validate m.cfg.unitId (m.rxBuf.take m.rxLen) = .drop e) ∨ byteAt (m.rxBuf.take m.rxLen) 0 = 0#8) →
    ∃ t, step s = .next t ∧ t.txBuf = m.txBuf ∧ t.txLen = m.txLen ∧ t.txIdx = m.txIdx ∧ t.txEnR = m.txEnR ∧
      t.phase = .idle

/-! ## The eight handlers: completion and result -/

/-- RC completes: the packed bits round-trip exactly against the coils, padding bits are 0 (43_read_bits.md R190; the fc number
and the zero padding are general knowledge there). -/
def Obligations.ReadCoilsReplies : Prop :=
  ∀ (s : State) (u : Byte) (a v : Word), 1 ≤ v.toNat → v.toNat ≤ 2000 → a.toNat + v.toNat ≤ s.cfg.nCoil →
    ∃ d : List Byte, d.length = (v.toNat + 7) / 8 ∧
      (∀ i, i < 8 * d.length →
        (d.getD (i / 8) 0#8).getLsbD (i % 8) = (decide (i < v.toNat) && s.bitAt .coil (a.toNat + i))) ∧
      Reaches (exec (.rc u (.fields a v)) s) (readEnds u 0x01#8 a v (BitVec.ofNat 8 d.length :: d) s)

/-- RDI completes, as RC with the space DI (43_read_bits.md R191; fc and padding are general knowledge there). -/
def Obligations.ReadDiscreteInputsReplies : Prop :=
  ∀ (s : State) (u : Byte) (a v : Word), 1 ≤ v.toNat → v.toNat ≤ 2000 → a.toNat + v.toNat ≤ s.cfg.nDi →
    ∃ d : List Byte, d.length = (v.toNat + 7) / 8 ∧
      (∀ i, i < 8 * d.length →
        (d.getD (i / 8) 0#8).getLsbD (i % 8) = (decide (i < v.toNat) && s.bitAt .di (a.toNat + i))) ∧
      Reaches (exec (.rdi u (.fields a v)) s) (readEnds u 0x02#8 a v (BitVec.ofNat 8 d.length :: d) s)

/-- RHR, the whole of 44_read_registers.md R200: the four checks in their order and, when they pass, byte count 2V and the
registers high byte first. -/
def Obligations.ReadHoldingRegistersReplies : Prop :=
  ∀ (s : State) (u : Byte),
    (∀ r, s.cfg.nHr = 0 → Reaches (exec (.rhr u r) s) (raises u 0x03#8 .illegalDataAddress s)) ∧
    (∀ p, s.cfg.nHr ≠ 0 → Reaches (exec (.rhr u (.missized p)) s) (raises u 0x03#8 .illegalDataValue s)) ∧
    ∀ a v : Word, s.cfg.nHr ≠ 0 →
      (s.cfg.nHr < a.toNat + v.toNat →
        Reaches (exec (.rhr u (.fields a v)) s) (raises u 0x03#8 .illegalDataAddress s)) ∧
      (a.toNat + v.toNat ≤ s.cfg.nHr → (v.toNat < 1 ∨ 125 < v.toNat) →
        Reaches (exec (.rhr u (.fields a v)) s) (raises u 0x03#8 .illegalDataValue s)) ∧
      (a.toNat + v.toNat ≤ s.cfg.nHr → 1 ≤ v.toNat → v.toNat ≤ 125 →
        ∃ d : List Byte, d.length = 2 * v.toNat ∧
          (∀ i, i < v.toNat → d.getD (2 * i) 0#8 = hi (s.wordAt .hr (a.toNat + i)) ∧
            d.getD (2 * i + 1) 0#8 = lo (s.wordAt .hr (a.toNat + i))) ∧
          Reaches (exec (.rhr u (.fields a v)) s) (readEnds u 0x03#8 a v (BitVec.ofNat 8 (2 * v.toNat) :: d) s))

/-- RIR completes, as RHR with the space IR (44_read_registers.md R201; fc is general knowledge there). -/
def Obligations.ReadInputRegistersReplies : Prop :=
  ∀ (s : State) (u : Byte) (a v : Word), 1 ≤ v.toNat → v.toNat ≤ 125 → a.toNat + v.toNat ≤ s.cfg.nIr →
    ∃ d : List Byte, d.length = 2 * v.toNat ∧
      (∀ i, i < v.toNat → d.getD (2 * i) 0#8 = hi (s.wordAt .ir (a.toNat + i)) ∧
        d.getD (2 * i + 1) 0#8 = lo (s.wordAt .ir (a.toNat + i))) ∧
      Reaches (exec (.rir u (.fields a v)) s) (readEnds u 0x04#8 a v (BitVec.ofNat 8 (2 * v.toNat) :: d) s)

/-- WSC completes: coil `A` becomes on (0xFF00) or off (0x0000), no other element changes, the reply echoes the request, the
hook is due at release with quantity 1 (45_write_single.md R210; fc, polarity and the hook's quantity are marked there). -/
def Obligations.WriteSingleCoilWrites : Prop :=
  ∀ (s : State) (u : Byte) (a v : Word), s.memoryWf = true → (v = 0x0000#16 ∨ v = 0xFF00#16) → a.toNat < s.cfg.nCoil →
    ∃ w : State, w = { s with coil := w.coil } ∧
      (∀ b, w.bitAt .coil b = if b = a.toNat then decide (v = 0xFF00#16) else s.bitAt .coil b) ∧
      Reaches (exec (.wsc u (.fields a v)) s) (writeEnds u 0x05#8 a v 1#16 w)

/-- WSR completes for every value: register `A` becomes `V` (45_write_single.md R211; fc is general knowledge there). -/
def Obligations.WriteSingleRegisterWrites : Prop :=
  ∀ (s : State) (u : Byte) (a v : Word), s.memoryWf = true → a.toNat < s.cfg.nHr →
    ∃ w : State, w = { s with hr := w.hr } ∧
      (∀ b, w.wordAt .hr b = if b = a.toNat then v else s.wordAt .hr b) ∧
      Reaches (exec (.wsr u (.fields a v)) s) (writeEnds u 0x06#8 a v 1#16 w)

/-- WMC completes: coils `A` to `A + V - 1` take the packed bits, padding bits are ignored, no other element changes
(46_write_multiple.md R220; fc and the ignored padding are general knowledge there). -/
def Obligations.WriteMultipleCoilsWrites : Prop :=
  ∀ (s : State) (u bc : Byte) (a v : Word) (d : List Byte), s.memoryWf = true → 1 ≤ v.toNat → v.toNat ≤ 1968 →
    a.toNat + v.toNat ≤ s.cfg.nCoil → bc.toNat = (v.toNat + 7) / 8 → d.length = bc.toNat →
    ∃ w : State, w = { s with coil := w.coil } ∧
      (∀ b, w.bitAt .coil b =
        if a.toNat ≤ b ∧ b < a.toNat + v.toNat then (d.getD ((b - a.toNat) / 8) 0#8).getLsbD ((b - a.toNat) % 8)
        else s.bitAt .coil b) ∧
      Reaches (exec (.wmc u (.fields a v bc d)) s) (writeEnds u 0x0F#8 a v v w)

/-- WMR completes: registers `A` to `A + V - 1` take the data words, high byte first, no other element changes
(46_write_multiple.md R221; fc is general knowledge there). -/
def Obligations.WriteMultipleRegistersWrites : Prop :=
  ∀ (s : State) (u bc : Byte) (a v : Word) (d : List Byte), s.memoryWf = true → 1 ≤ v.toNat → v.toNat ≤ 123 →
    a.toNat + v.toNat ≤ s.cfg.nHr → bc.toNat = 2 * v.toNat → d.length = bc.toNat →
    ∃ w : State, w = { s with hr := w.hr } ∧
      (∀ b, w.wordAt .hr b =
        if a.toNat ≤ b ∧ b < a.toNat + v.toNat then
          be16 (d.getD (2 * (b - a.toNat)) 0#8) (d.getD (2 * (b - a.toNat) + 1) 0#8)
        else s.wordAt .hr b) ∧
      Reaches (exec (.wmr u (.fields a v bc d)) s) (writeEnds u 0x10#8 a v v w)

/-! ## The eight handlers: exceptions -/

/-- K1: with the handler's table unbound or empty every request raises IllegalDataAddress, whatever the rest of the frame holds
(42_dispatcher.md R173). -/
def Obligations.UnboundTableRejectsEveryRequest : Prop :=
  ∀ (s : State) (u : Byte) (r : Rq8) (q : Rqm),
    (s.cfg.nCoil = 0 →
      Reaches (exec (.rc u r) s) (raises u 0x01#8 .illegalDataAddress s) ∧
      Reaches (exec (.wsc u r) s) (raises u 0x05#8 .illegalDataAddress s) ∧
      Reaches (exec (.wmc u q) s) (raises u 0x0F#8 .illegalDataAddress s)) ∧
    (s.cfg.nDi = 0 → Reaches (exec (.rdi u r) s) (raises u 0x02#8 .illegalDataAddress s)) ∧
    (s.cfg.nHr = 0 →
      Reaches (exec (.rhr u r) s) (raises u 0x03#8 .illegalDataAddress s) ∧
      Reaches (exec (.wsr u r) s) (raises u 0x06#8 .illegalDataAddress s) ∧
      Reaches (exec (.wmr u q) s) (raises u 0x10#8 .illegalDataAddress s)) ∧
    (s.cfg.nIr = 0 → Reaches (exec (.rir u r) s) (raises u 0x04#8 .illegalDataAddress s))

/-- K2: with the table bound, an RQ8 request whose frame is not 8 bytes and an RQM request whose frame has fewer than 9 raise
IllegalDataValue (42_dispatcher.md R174; the code is the spec's decision D14). -/
def Obligations.MalformedLengthIsIllegalValue : Prop :=
  ∀ (s : State) (u : Byte) (p : List Byte),
    (s.cfg.nCoil ≠ 0 →
      Reaches (exec (.rc u (.missized p)) s) (raises u 0x01#8 .illegalDataValue s) ∧
      Reaches (exec (.wsc u (.missized p)) s) (raises u 0x05#8 .illegalDataValue s) ∧
      Reaches (exec (.wmc u (.short p)) s) (raises u 0x0F#8 .illegalDataValue s)) ∧
    (s.cfg.nDi ≠ 0 → Reaches (exec (.rdi u (.missized p)) s) (raises u 0x02#8 .illegalDataValue s)) ∧
    (s.cfg.nHr ≠ 0 →
      Reaches (exec (.rhr u (.missized p)) s) (raises u 0x03#8 .illegalDataValue s) ∧
      Reaches (exec (.wsr u (.missized p)) s) (raises u 0x06#8 .illegalDataValue s) ∧
      Reaches (exec (.wmr u (.short p)) s) (raises u 0x10#8 .illegalDataValue s)) ∧
    (s.cfg.nIr ≠ 0 → Reaches (exec (.rir u (.missized p)) s) (raises u 0x04#8 .illegalDataValue s))

/-- K3: with the table bound and the length good, `A + Q` above the count, summed without wrap, raises IllegalDataAddress
whatever the value checks would say; a quantity of 0 that passes K3 raises IllegalDataValue (42_dispatcher.md R176). -/
def Obligations.OutOfBoundsIsIllegalAddress : Prop :=
  ∀ (s : State) (u bc : Byte) (a v : Word) (d : List Byte),
    (s.cfg.nCoil ≠ 0 →
      (s.cfg.nCoil < a.toNat + v.toNat →
        Reaches (exec (.rc u (.fields a v)) s) (raises u 0x01#8 .illegalDataAddress s) ∧
        Reaches (exec (.wmc u (.fields a v bc d)) s) (raises u 0x0F#8 .illegalDataAddress s)) ∧
      (s.cfg.nCoil < a.toNat + 1 →
        Reaches (exec (.wsc u (.fields a v)) s) (raises u 0x05#8 .illegalDataAddress s)) ∧
      (v = 0#16 → a.toNat ≤ s.cfg.nCoil →
        Reaches (exec (.rc u (.fields a v)) s) (raises u 0x01#8 .illegalDataValue s) ∧
        Reaches (exec (.wmc u (.fields a v bc d)) s) (raises u 0x0F#8 .illegalDataValue s))) ∧
    (s.cfg.nDi ≠ 0 →
      (s.cfg.nDi < a.toNat + v.toNat →
        Reaches (exec (.rdi u (.fields a v)) s) (raises u 0x02#8 .illegalDataAddress s)) ∧
      (v = 0#16 → a.toNat ≤ s.cfg.nDi →
        Reaches (exec (.rdi u (.fields a v)) s) (raises u 0x02#8 .illegalDataValue s))) ∧
    (s.cfg.nHr ≠ 0 →
      (s.cfg.nHr < a.toNat + v.toNat →
        Reaches (exec (.rhr u (.fields a v)) s) (raises u 0x03#8 .illegalDataAddress s) ∧
        Reaches (exec (.wmr u (.fields a v bc d)) s) (raises u 0x10#8 .illegalDataAddress s)) ∧
      (s.cfg.nHr < a.toNat + 1 →
        Reaches (exec (.wsr u (.fields a v)) s) (raises u 0x06#8 .illegalDataAddress s)) ∧
      (v = 0#16 → a.toNat ≤ s.cfg.nHr →
        Reaches (exec (.rhr u (.fields a v)) s) (raises u 0x03#8 .illegalDataValue s) ∧
        Reaches (exec (.wmr u (.fields a v bc d)) s) (raises u 0x10#8 .illegalDataValue s))) ∧
    (s.cfg.nIr ≠ 0 →
      (s.cfg.nIr < a.toNat + v.toNat →
        Reaches (exec (.rir u (.fields a v)) s) (raises u 0x04#8 .illegalDataAddress s)) ∧
      (v = 0#16 → a.toNat ≤ s.cfg.nIr →
        Reaches (exec (.rir u (.fields a v)) s) (raises u 0x04#8 .illegalDataValue s)))

/-- K4, the quantity limits: in bounds but with a quantity outside 1 to 2000, 125, 1968 or 123 the request raises
IllegalDataValue; the single writes have no quantity field and act with quantity 1 (42_dispatcher.md R175), which is the
quantity in the triple of the hook they make due (42_dispatcher.md R178, the spec's decision D17). -/
def Obligations.QuantityLimitsAreChecked : Prop :=
  ∀ (s : State) (u bc : Byte) (a v : Word) (d : List Byte),
    (a.toNat + v.toNat ≤ s.cfg.nCoil → s.cfg.nCoil ≠ 0 → (v.toNat < 1 ∨ 2000 < v.toNat) →
      Reaches (exec (.rc u (.fields a v)) s) (raises u 0x01#8 .illegalDataValue s)) ∧
    (a.toNat + v.toNat ≤ s.cfg.nDi → s.cfg.nDi ≠ 0 → (v.toNat < 1 ∨ 2000 < v.toNat) →
      Reaches (exec (.rdi u (.fields a v)) s) (raises u 0x02#8 .illegalDataValue s)) ∧
    (a.toNat + v.toNat ≤ s.cfg.nHr → s.cfg.nHr ≠ 0 → (v.toNat < 1 ∨ 125 < v.toNat) →
      Reaches (exec (.rhr u (.fields a v)) s) (raises u 0x03#8 .illegalDataValue s)) ∧
    (a.toNat + v.toNat ≤ s.cfg.nIr → s.cfg.nIr ≠ 0 → (v.toNat < 1 ∨ 125 < v.toNat) →
      Reaches (exec (.rir u (.fields a v)) s) (raises u 0x04#8 .illegalDataValue s)) ∧
    (a.toNat + v.toNat ≤ s.cfg.nCoil → s.cfg.nCoil ≠ 0 → (v.toNat < 1 ∨ 1968 < v.toNat) →
      Reaches (exec (.wmc u (.fields a v bc d)) s) (raises u 0x0F#8 .illegalDataValue s)) ∧
    (a.toNat + v.toNat ≤ s.cfg.nHr → s.cfg.nHr ≠ 0 → (v.toNat < 1 ∨ 123 < v.toNat) →
      Reaches (exec (.wmr u (.fields a v bc d)) s) (raises u 0x10#8 .illegalDataValue s)) ∧
    (u ≠ 0#8 → s.cfg.hasHook = true → a.toNat + 1 ≤ s.cfg.nCoil → (v = 0x0000#16 ∨ v = 0xFF00#16) →
      ∃ t, exec (.wsc u (.fields a v)) s = .next t ∧ t.pendHook = some ⟨0x05#8, a, 1#16⟩) ∧
    (u ≠ 0#8 → s.cfg.hasHook = true → a.toNat + 1 ≤ s.cfg.nHr →
      ∃ t, exec (.wsr u (.fields a v)) s = .next t ∧ t.pendHook = some ⟨0x06#8, a, 1#16⟩)

/-- K4, the other value checks: a coil value that is neither form, a byte count that is not the expected one, and a frame
length that is not 9 + `BC` raise IllegalDataValue (30_encoding.md R100, R101; 42_dispatcher.md R174, decision D14). -/
def Obligations.BadValueOrByteCountIsIllegalValue : Prop :=
  ∀ (s : State) (u bc : Byte) (a v : Word) (d : List Byte),
    (a.toNat < s.cfg.nCoil → v ≠ 0x0000#16 → v ≠ 0xFF00#16 →
      Reaches (exec (.wsc u (.fields a v)) s) (raises u 0x05#8 .illegalDataValue s)) ∧
    (a.toNat + v.toNat ≤ s.cfg.nCoil → s.cfg.nCoil ≠ 0 → (bc.toNat ≠ (v.toNat + 7) / 8 ∨ d.length ≠ bc.toNat) →
      Reaches (exec (.wmc u (.fields a v bc d)) s) (raises u 0x0F#8 .illegalDataValue s)) ∧
    (a.toNat + v.toNat ≤ s.cfg.nHr → s.cfg.nHr ≠ 0 → (bc.toNat ≠ 2 * v.toNat ∨ d.length ≠ bc.toNat) →
      Reaches (exec (.wmr u (.fields a v bc d)) s) (raises u 0x10#8 .illegalDataValue s))

/-! ## Frames and whole-machine rules -/

/-- FRAME of the four reads, in every form, on every state: no element of any table changes; the registers that may change are
`phase`, `rx_len`, `tx_buf`, `tx_len`, `tx_idx`, `tx_en_r` and the hook port, and the event history; all else is as it was. -/
def Obligations.ReadsChangeNothingElse : Prop :=
  ∀ (s t : State) (u : Byte) (r : Rq8) (i : Instr), i ∈ [Instr.rc u r, .rdi u r, .rhr u r, .rir u r] →
    exec i s = .next t →
    (∀ sp a, t.bitAt sp a = s.bitAt sp a) ∧ (∀ sp a, t.wordAt sp a = s.wordAt sp a) ∧
    t = { s with
      phase := t.phase, rxLen := t.rxLen, txBuf := t.txBuf, txLen := t.txLen, txIdx := t.txIdx, txEnR := t.txEnR
      out := { s.out with hook := t.out.hook }, events := t.events }

/-- FRAME of the two single writes, in every form: the only element that may change is element `A` of the written space, and
only in the fields form; no other space changes; the registers that may change are `phase`, `rx_len`, `tx_buf`, `tx_len`,
`tx_idx`, `tx_en_r`, `pend_hook`, and the event history. -/
def Obligations.SingleWritesChangeOneElement : Prop :=
  ∀ (s t : State) (u : Byte) (r : Rq8), s.memoryWf = true →
    (exec (.wsc u r) s = .next t →
      (∀ b, (∀ a v, r = .fields a v → b ≠ a.toNat) → t.bitAt .coil b = s.bitAt .coil b) ∧
      t = { s with
        coil := t.coil
        phase := t.phase, rxLen := t.rxLen, txBuf := t.txBuf, txLen := t.txLen, txIdx := t.txIdx, txEnR := t.txEnR
        pendHook := t.pendHook, events := t.events }) ∧
    (exec (.wsr u r) s = .next t →
      (∀ b, (∀ a v, r = .fields a v → b ≠ a.toNat) → t.wordAt .hr b = s.wordAt .hr b) ∧
      t = { s with
        hr := t.hr
        phase := t.phase, rxLen := t.rxLen, txBuf := t.txBuf, txLen := t.txLen, txIdx := t.txIdx, txEnR := t.txEnR
        pendHook := t.pendHook, events := t.events })

/-- FRAME of the two multiple writes, in every form: the elements that may change are `A` to `A + V - 1` of the written space,
and only in the fields form; the registers that may change are those of the single writes. -/
def Obligations.MultipleWritesChangeTheirRange : Prop :=
  ∀ (s t : State) (u : Byte) (r : Rqm), s.memoryWf = true →
    (exec (.wmc u r) s = .next t →
      (∀ b, (∀ a v bc d, r = .fields a v bc d → b < a.toNat ∨ a.toNat + v.toNat ≤ b) →
        t.bitAt .coil b = s.bitAt .coil b) ∧
      t = { s with
        coil := t.coil
        phase := t.phase, rxLen := t.rxLen, txBuf := t.txBuf, txLen := t.txLen, txIdx := t.txIdx, txEnR := t.txEnR
        pendHook := t.pendHook, events := t.events }) ∧
    (exec (.wmr u r) s = .next t →
      (∀ b, (∀ a v bc d, r = .fields a v bc d → b < a.toNat ∨ a.toNat + v.toNat ≤ b) →
        t.wordAt .hr b = s.wordAt .hr b) ∧
      t = { s with
        hr := t.hr
        phase := t.phase, rxLen := t.rxLen, txBuf := t.txBuf, txLen := t.txLen, txIdx := t.txIdx, txEnR := t.txEnR
        pendHook := t.pendHook, events := t.events })

/-- All eight functions are idempotent on the tables: executing the same request twice leaves them as after the first
(20_memory.md R76, marked derived there). -/
def Obligations.RequestsAreIdempotentOnTables : Prop :=
  ∀ (i : Instr) (s t t' : State), s.memoryWf = true → exec i s = .next t → exec i t = .next t' →
    t'.coil = t.coil ∧ t'.di = t.di ∧ t'.hr = t.hr ∧ t'.ir = t.ir

/-- Registers written by a multiple write are read back by the next read of the same range exactly, byte for byte: whoever
asks (20_memory.md R80, 46_write_multiple.md R221). -/
def Obligations.RegistersReadBackAsWritten : Prop :=
  ∀ (s t : State) (u u' bc : Byte) (a v : Word) (d : List Byte), s.memoryWf = true → u' ≠ 0#8 → 1 ≤ v.toNat →
    v.toNat ≤ 123 → a.toNat + v.toNat ≤ s.cfg.nHr → bc.toNat = 2 * v.toNat → d.length = bc.toNat →
    exec (.wmr u (.fields a v bc d)) s = .next t →
    ∃ t', exec (.rhr u' (.fields a v)) t = .next t' ∧
      t'.txBuf.take t'.txLen =
        (u' :: 0x03#8 :: bc :: d) ++ [lo (crc16 (u' :: 0x03#8 :: bc :: d)), hi (crc16 (u' :: 0x03#8 :: bc :: d))]

/-- No step lets the bus write DI or IR, and COIL and HR change only in the tick in which a completed frame decodes to a write
of that table, accepted for this unit, and is answered normally or is a broadcast that succeeded: never on an exception, a
drop or an ignored frame (20_memory.md R74, R79; 60_exceptions.md R281). -/
def Obligations.TablesChangeOnlyByASuccessfulWrite : Prop :=
  ∀ s m t : State, beginTick s.input s = m → step s = .next t →
    t.di = m.di ∧ t.ir = m.ir ∧
    (t.coil ≠ m.coil ∨ t.hr ≠ m.hr →
      Completes m ∧ ∃ i : Instr, decode (m.rxBuf.take m.rxLen) = .ok i ∧
        (t.coil ≠ m.coil → i.fc = 0x05#8 ∨ i.fc = 0x0F#8) ∧ (t.hr ≠ m.hr → i.fc = 0x06#8 ∨ i.fc = 0x10#8) ∧
        (i.unit = 0#8 ∨ m.cfg.unitId = 0xFF#8 ∨ i.unit = m.cfg.unitId) ∧
        (t.events = m.events ++ [.reply i.fc] ∨ t.events = m.events ++ [.bcastOk i.fc]))

/-- A hook strobes or becomes due only for a configured hook, an addressed request and a normal end (42_dispatcher.md R178; no
hook for broadcasts and the release as the time of a write's hook are the spec's decision D17). In the EXEC tick: whatever a
request strobes or makes due. In every tick, from every state that meets the invariant: a strobe is that of a read answered
in this tick, or at the release that of the write hook that was due; and a hook becomes due only in the tick in which a write
is answered. -/
def Obligations.HookOnlyForAddressedSuccess : Prop :=
  (∀ (i : Instr) (s t : State), exec i s = .next t → (t.out.hook ≠ s.out.hook ∨ t.pendHook ≠ s.pendHook) →
    s.cfg.hasHook = true ∧ i.unit ≠ 0#8 ∧ t.events = s.events ++ [.reply i.fc]) ∧
  ∀ s m t : State, s.Inv → beginTick s.input s = m → step s = .next t →
    (t.out.hook ≠ none →
      m.cfg.hasHook = true ∧ s.input.rst = none ∧
        ((m.phase = .flush ∧ t.phase = .idle ∧ t.out.hook = m.pendHook ∧ t.events = m.events ++ [.release]) ∨
         (Completes m ∧ ∃ i : Instr, decode (m.rxBuf.take m.rxLen) = .ok i ∧ i.unit ≠ 0#8 ∧
           i.fc ∈ [0x01#8, 0x02#8, 0x03#8, 0x04#8] ∧ t.events = m.events ++ [.reply i.fc]))) ∧
    (t.pendHook ≠ none → t.pendHook ≠ m.pendHook →
      m.cfg.hasHook = true ∧ s.input.rst = none ∧ Completes m ∧
        ∃ i : Instr, decode (m.rxBuf.take m.rxLen) = .ok i ∧ i.unit ≠ 0#8 ∧
          i.fc ∈ [0x05#8, 0x06#8, 0x0F#8, 0x10#8] ∧ t.events = m.events ++ [.reply i.fc])

/-- The reply is a function of the request, `cfg` and the table contents only: whatever else differs between two states, the
same request gets a reply in both or in neither, and the same bytes (47_response_builder.md R230, 42_dispatcher.md R170). -/
def Obligations.ReplyDependsOnRequestAndTablesOnly : Prop :=
  ∀ (i : Instr) (s s' t t' : State), s'.cfg = s.cfg → s'.coil = s.coil → s'.di = s.di → s'.hr = s.hr → s'.ir = s.ir →
    exec i s = .next t → exec i s' = .next t' →
    t'.phase = t.phase ∧ t'.coil = t.coil ∧ t'.hr = t.hr ∧
      (t.phase = .transmit → t'.txBuf.take t'.txLen = t.txBuf.take t.txLen ∧ t'.txLen = t.txLen)

/-- The only phase changes: IDLE to RECEIVING, RECEIVING to IDLE or TRANSMIT, TRANSMIT to FLUSH, FLUSH to IDLE, and any to IDLE
on reset (10_state.md R22, the spec's decision D1). -/
def Obligations.PhaseTransitionsAreTheListedOnes : Prop :=
  ∀ s t : State, step s = .next t → t.phase ≠ s.phase →
    (s.phase = .idle ∧ t.phase = .receiving) ∨ (s.phase = .receiving ∧ (t.phase = .idle ∨ t.phase = .transmit)) ∨
    (s.phase = .transmit ∧ t.phase = .flush) ∨ (s.phase = .flush ∧ t.phase = .idle) ∨
    (s.input.rst ≠ none ∧ t.phase = .idle)

/-! ## Response builder and transceiver control -/

/-- TRANSMIT: byte `tx_idx` is offered; a ready transport takes it, and the last one taken starts FLUSH with `hold` 0; without
`tx_ready` nothing but the offer happens (47_response_builder.md R235, the spec's decision D3). -/
def Obligations.TransmitOffersTheNextByte : Prop :=
  ∀ (s m : State), Ready s m → m.phase = .transmit →
    step s = .next
      (if s.input.txReady then
        { m with
          out := { m.out with tx := some (m.txBuf.getD m.txIdx 0#8) }
          txPending := m.txPending ++ [m.txBuf.getD m.txIdx 0#8]
          txIdx := m.txIdx + 1
          hold := if m.txIdx + 1 = m.txLen then 0#32 else m.hold
          phase := if m.txIdx + 1 = m.txLen then .flush else .transmit }
      else { m with out := { m.out with tx := some (m.txBuf.getD m.txIdx 0#8) } })

/-- FLUSH: an unconfirmed tick restarts `hold`, a confirmed one counts it up to `FLUSH_HOLD`, then comes the release, which
drops `tx_en_r`, restarts the silence, empties the receive buffer, returns to IDLE and strobes a due write hook
(47_response_builder.md R237, R238, the spec's decisions D6, D17, D24). -/
def Obligations.FlushHoldsThenReleases : Prop :=
  ∀ (s m : State), Ready s m → m.phase = .flush →
    (s.input.txDone = false → step s = .next { m with hold := 0#32 }) ∧
    (s.input.txDone = true → m.hold.toNat < m.cfg.flushHold.toNat →
      ∃ h, h.toNat = m.hold.toNat + 1 ∧ step s = .next { m with hold := h }) ∧
    (s.input.txDone = true → m.cfg.flushHold.toNat ≤ m.hold.toNat →
      step s = .next { m with
        txEnR := false, sil := 0#32, rxLen := 0, phase := .idle
        out := { m.out with hook := m.pendHook }, pendHook := none, events := m.events ++ [.release] })

/-- Under a transport that is truthful in this tick (47_response_builder.md R236, a premise on the environment, log 18) the bus
is never released with a byte unsent: the tick that ends a reply leaves no taken byte on the transport's side. -/
def Obligations.NoReleaseWithUnsentBytes : Prop :=
  ∀ s t : State, s.doneTruthful = true → step s = .next t → s.input.rst = none → s.phase = .flush → t.phase = .idle →
    t.txPending = [] ∧ t.txEnR = false ∧ t.rxLen = 0 ∧ t.sil = 0#32

/-- The transmit-enable port is 1 exactly in the ticks that end in TRANSMIT or FLUSH, when it is configured: from the EXEC tick
of a reply to the tick before the release (47_response_builder.md R234, the spec's decision D23). -/
def Obligations.TransmitEnableEnvelope : Prop :=
  ∀ s t : State, s.Inv → step s = .next t →
    t.txEn = (t.cfg.hasTxEn && (t.phase == .transmit || t.phase == .flush))

/-- A reply is never shortened or aborted: with a ready transport its bytes, from `tx_idx` to `tx_len`, are handed over in order,
one a tick, whatever arrives on the receive side, leaves the link or is written by the application; then the phase is FLUSH
and nothing received meanwhile was consumed (47_response_builder.md R235, R240). No more bytes have left the transport, oldest
first, than the link took. -/
def Obligations.WholeReplyIsHandedOver : Prop :=
  ∀ (is rest : List TickInput) (s : State), s.env = is ++ rest →
    (∀ i ∈ is, Undisturbed i ∧ i.txReady = true) → s.legal = true → s.Inv → s.phase = .transmit →
    is.length = s.txLen - s.txIdx →
    ∃ t, Sys2Proof.core.run is.length s = .next t ∧ t.phase = .flush ∧ t.txIdx = t.txLen ∧ t.txEnR = true ∧
      (∃ k, k ≤ (is.map TickInput.txLeft).sum ∧
        t.txPending = (s.txPending ++ (s.txBuf.take s.txLen).drop s.txIdx).drop k) ∧
      t.rxQueue = s.rxQueue ++ (is.map TickInput.arrivals).flatten ∧ t.events = s.events

/-- The one way to hang stays visible: while `tx_ready` stays 0 the engine stays in TRANSMIT, while `tx_done` stays 0 it stays
in FLUSH, for any number of ticks, with `tx_en_r` as it was and consuming no byte (70_reset_and_hazards.md R315). -/
def Obligations.TransportSilenceHangsVisibly : Prop :=
  ∀ (is rest : List TickInput) (s : State), s.env = is ++ rest → (∀ i ∈ is, Undisturbed i) → s.legal = true →
    (s.phase = .transmit → (∀ i ∈ is, i.txReady = false) →
      ∃ t, Sys2Proof.core.run is.length s = .next t ∧ t.phase = .transmit ∧ t.txEnR = s.txEnR ∧ t.txIdx = s.txIdx ∧
        t.rxQueue = s.rxQueue ++ (is.map TickInput.arrivals).flatten) ∧
    (s.phase = .flush → (∀ i ∈ is, i.txDone = false) →
      ∃ t, Sys2Proof.core.run is.length s = .next t ∧ t.phase = .flush ∧ t.txEnR = s.txEnR ∧
        t.rxQueue = s.rxQueue ++ (is.map TickInput.arrivals).flatten)

/-- "With a transport that meets its duties every transaction ends in IDLE" (60_exceptions.md R279, the duties being those of
47_response_builder.md R236 as `TransportMeetsDuties` names them): from every legally configured state that meets the
invariant, in whatever phase, whatever bytes arrive and whatever the application does, IDLE is reached. -/
def Obligations.EveryTransactionEndsInIdle : Prop :=
  ∀ s : State, s.legal = true → s.Inv → TransportMeetsDuties s → ∃ t, Reach s t ∧ t.phase = .idle

/-! ## Invariant -/

/-- The state after reset meets the invariant and is legally configured (the values of `cfg` and the buffers' contents are the
model's choice, logs 1 and 2; the statement holds of them, not for them). -/
def Obligations.ResetMeetsTheInvariant : Prop := State.reset.Inv ∧ State.reset.legal = true

/-- Every step keeps the invariant, from every state that meets it: buffer sizes and index ranges, the column "Invariant while in
it" of 10_state.md R22, no due hook outside TRANSMIT and FLUSH or without a configured hook, derived timeouts (for an illegal
record log 16, the model's choice), canonical tables. -/
def Obligations.StepKeepsTheInvariant : Prop := ∀ s t : State, s.Inv → step s = .next t → t.Inv
end

