-- ==== Sys2Proof/Laws/Bytes.lean ====
section
/-! SUPPORT. The small lemmas of the byte-order, bit-packing and CRC-field helpers. -/

namespace Sys2Proof

@[simp] theorem hi_be16 (h l : Byte) : hi (be16 h l) = h := by
  unfold hi be16
  exact BitVec.extractLsb'_append_eq_left

@[simp] theorem lo_be16 (h l : Byte) : lo (be16 h l) = l := by
  unfold lo be16
  exact BitVec.extractLsb'_append_eq_right

@[simp] theorem be16_hi_lo (w : Word) : be16 (hi w) (lo w) = w := by
  unfold be16 hi lo
  exact BitVec.extractLsb'_append_extractLsb'

@[simp] theorem wordBytes_length (ws : List Word) : (wordBytes ws).length = 2 * ws.length := by
  induction ws with
  | nil => rfl
  | cons w ws ih => simp [wordBytes, ih]; omega

@[simp] theorem bytesWords_wordBytes (ws : List Word) : bytesWords (wordBytes ws) = ws := by
  induction ws with
  | nil => rfl
  | cons w ws ih => simp [wordBytes, bytesWords, ih]

/-- A data field of `2n` bytes holds `n` words. -/
theorem bytesWords_length (n : Nat) : ∀ bs : List Byte, bs.length = 2 * n → (bytesWords bs).length = n := by
  induction n with
  | zero => intro bs h; simp at h; simp [h, bytesWords]
  | succ n ih =>
    intro bs h
    match bs, h with
    | h1 :: h2 :: r, h => simp [bytesWords]; exact ih r (by simp at h; omega)
    | [_], h => simp at h; omega
    | [], h => simp at h

@[simp] theorem unpackBits_length (n : Nat) (d : List Byte) : (unpackBits n d).length = n := by simp [unpackBits]

@[simp] theorem packBits_length (bits : List Bool) : (packBits bits).length = bitByteCount bits.length := by
  simp [packBits]

@[simp] theorem crcField_length (s : List Byte) : (crcField s).length = 2 := rfl

@[simp] theorem withCrc_length (b : List Byte) : (withCrc b).length = b.length + 2 := by simp [withCrc]

/-- What the encoder appends is what the validator accepts. -/
@[simp] theorem crcOk_withCrc (b : List Byte) : crcOk (withCrc b) = true := by
  have h1 : b.length + 2 - 1 = b.length + 1 := by omega
  simp [crcOk, byteAt, h1]
  simp [withCrc, crcField]

/-- The body of a frame with its CRC, between the first two bytes and the CRC. -/
theorem framePayload_withCrc (u fc : Byte) (p : List Byte) : framePayload (withCrc (u :: fc :: p)) = p := by
  simp [framePayload, withCrc]

theorem byteAt_withCrc_zero (u : Byte) (p : List Byte) : byteAt (withCrc (u :: p)) 0 = u := rfl

theorem byteAt_withCrc_one (u fc : Byte) (p : List Byte) : byteAt (withCrc (u :: fc :: p)) 1 = fc := rfl

/-- The decoder on a frame built from its parts. -/
theorem decode_withCrc (u fc : Byte) (p : List Byte) : decode (withCrc (u :: fc :: p)) = decodeRequest u fc p := by
  have h : ¬ ((withCrc (u :: fc :: p)).length < minFrame) := by simp only [withCrc_length, List.length_cons, minFrame]; omega
  rw [decode, if_neg h, crcOk_withCrc, if_pos rfl, decodeBody, framePayload_withCrc, byteAt_withCrc_zero, byteAt_withCrc_one]

end Sys2Proof
end

