-- ==== Sys2Proof/Laws/State.lean ====
section
/-! SUPPORT. One lemma per field per update of State, so that no proof unfolds a record update. -/

namespace Sys2Proof.Machine

variable (s : State)

/-! ## emit -/

@[simp] theorem emit_phase (e : Event) : (emit e s).phase = s.phase := rfl
@[simp] theorem emit_rxBuf (e : Event) : (emit e s).rxBuf = s.rxBuf := rfl
@[simp] theorem emit_rxLen (e : Event) : (emit e s).rxLen = s.rxLen := rfl
@[simp] theorem emit_txBuf (e : Event) : (emit e s).txBuf = s.txBuf := rfl
@[simp] theorem emit_txLen (e : Event) : (emit e s).txLen = s.txLen := rfl
@[simp] theorem emit_txIdx (e : Event) : (emit e s).txIdx = s.txIdx := rfl
@[simp] theorem emit_hold (e : Event) : (emit e s).hold = s.hold := rfl
@[simp] theorem emit_sil (e : Event) : (emit e s).sil = s.sil := rfl
@[simp] theorem emit_txEnR (e : Event) : (emit e s).txEnR = s.txEnR := rfl
@[simp] theorem emit_pendHook (e : Event) : (emit e s).pendHook = s.pendHook := rfl
@[simp] theorem emit_cfg (e : Event) : (emit e s).cfg = s.cfg := rfl
@[simp] theorem emit_t15 (e : Event) : (emit e s).t15 = s.t15 := rfl
@[simp] theorem emit_t35 (e : Event) : (emit e s).t35 = s.t35 := rfl
@[simp] theorem emit_build (e : Event) : (emit e s).build = s.build := rfl
@[simp] theorem emit_coil (e : Event) : (emit e s).coil = s.coil := rfl
@[simp] theorem emit_di (e : Event) : (emit e s).di = s.di := rfl
@[simp] theorem emit_hr (e : Event) : (emit e s).hr = s.hr := rfl
@[simp] theorem emit_ir (e : Event) : (emit e s).ir = s.ir := rfl
@[simp] theorem emit_rxQueue (e : Event) : (emit e s).rxQueue = s.rxQueue := rfl
@[simp] theorem emit_txPending (e : Event) : (emit e s).txPending = s.txPending := rfl
@[simp] theorem emit_out (e : Event) : (emit e s).out = s.out := rfl
@[simp] theorem emit_events (e : Event) : (emit e s).events = s.events ++ [e] := rfl
@[simp] theorem emit_tick (e : Event) : (emit e s).tick = s.tick := rfl
@[simp] theorem emit_env (e : Event) : (emit e s).env = s.env := rfl

/-! ## endSilently -/

@[simp] theorem endSilently_phase : (endSilently s).phase = .idle := rfl
@[simp] theorem endSilently_rxBuf : (endSilently s).rxBuf = s.rxBuf := rfl
@[simp] theorem endSilently_rxLen : (endSilently s).rxLen = 0 := rfl
@[simp] theorem endSilently_txBuf : (endSilently s).txBuf = s.txBuf := rfl
@[simp] theorem endSilently_txLen : (endSilently s).txLen = s.txLen := rfl
@[simp] theorem endSilently_txIdx : (endSilently s).txIdx = s.txIdx := rfl
@[simp] theorem endSilently_hold : (endSilently s).hold = s.hold := rfl
@[simp] theorem endSilently_sil : (endSilently s).sil = s.sil := rfl
@[simp] theorem endSilently_txEnR : (endSilently s).txEnR = s.txEnR := rfl
@[simp] theorem endSilently_pendHook : (endSilently s).pendHook = s.pendHook := rfl
@[simp] theorem endSilently_cfg : (endSilently s).cfg = s.cfg := rfl
@[simp] theorem endSilently_t15 : (endSilently s).t15 = s.t15 := rfl
@[simp] theorem endSilently_t35 : (endSilently s).t35 = s.t35 := rfl
@[simp] theorem endSilently_build : (endSilently s).build = s.build := rfl
@[simp] theorem endSilently_coil : (endSilently s).coil = s.coil := rfl
@[simp] theorem endSilently_di : (endSilently s).di = s.di := rfl
@[simp] theorem endSilently_hr : (endSilently s).hr = s.hr := rfl
@[simp] theorem endSilently_ir : (endSilently s).ir = s.ir := rfl
@[simp] theorem endSilently_rxQueue : (endSilently s).rxQueue = s.rxQueue := rfl
@[simp] theorem endSilently_txPending : (endSilently s).txPending = s.txPending := rfl
@[simp] theorem endSilently_out : (endSilently s).out = s.out := rfl
@[simp] theorem endSilently_events : (endSilently s).events = s.events := rfl
@[simp] theorem endSilently_tick : (endSilently s).tick = s.tick := rfl
@[simp] theorem endSilently_env : (endSilently s).env = s.env := rfl

/-! ## loadReply -/

@[simp] theorem loadReply_phase (b : List Byte) : (loadReply b s).phase = .transmit := rfl
@[simp] theorem loadReply_rxBuf (b : List Byte) : (loadReply b s).rxBuf = s.rxBuf := rfl
@[simp] theorem loadReply_rxLen (b : List Byte) : (loadReply b s).rxLen = s.rxLen := rfl
@[simp] theorem loadReply_txBuf (b : List Byte) : (loadReply b s).txBuf = withCrc b ++ s.txBuf.drop (withCrc b).length := rfl
@[simp] theorem loadReply_txLen (b : List Byte) : (loadReply b s).txLen = (withCrc b).length := rfl
@[simp] theorem loadReply_txIdx (b : List Byte) : (loadReply b s).txIdx = 0 := rfl
@[simp] theorem loadReply_hold (b : List Byte) : (loadReply b s).hold = s.hold := rfl
@[simp] theorem loadReply_sil (b : List Byte) : (loadReply b s).sil = s.sil := rfl
@[simp] theorem loadReply_txEnR (b : List Byte) : (loadReply b s).txEnR = true := rfl
@[simp] theorem loadReply_pendHook (b : List Byte) : (loadReply b s).pendHook = s.pendHook := rfl
@[simp] theorem loadReply_cfg (b : List Byte) : (loadReply b s).cfg = s.cfg := rfl
@[simp] theorem loadReply_t15 (b : List Byte) : (loadReply b s).t15 = s.t15 := rfl
@[simp] theorem loadReply_t35 (b : List Byte) : (loadReply b s).t35 = s.t35 := rfl
@[simp] theorem loadReply_build (b : List Byte) : (loadReply b s).build = s.build := rfl
@[simp] theorem loadReply_coil (b : List Byte) : (loadReply b s).coil = s.coil := rfl
@[simp] theorem loadReply_di (b : List Byte) : (loadReply b s).di = s.di := rfl
@[simp] theorem loadReply_hr (b : List Byte) : (loadReply b s).hr = s.hr := rfl
@[simp] theorem loadReply_ir (b : List Byte) : (loadReply b s).ir = s.ir := rfl
@[simp] theorem loadReply_rxQueue (b : List Byte) : (loadReply b s).rxQueue = s.rxQueue := rfl
@[simp] theorem loadReply_txPending (b : List Byte) : (loadReply b s).txPending = s.txPending := rfl
@[simp] theorem loadReply_out (b : List Byte) : (loadReply b s).out = s.out := rfl
@[simp] theorem loadReply_events (b : List Byte) : (loadReply b s).events = s.events := rfl
@[simp] theorem loadReply_tick (b : List Byte) : (loadReply b s).tick = s.tick := rfl
@[simp] theorem loadReply_env (b : List Byte) : (loadReply b s).env = s.env := rfl

/-! ## release -/

@[simp] theorem release_phase : (release s).phase = .idle := rfl
@[simp] theorem release_rxBuf : (release s).rxBuf = s.rxBuf := rfl
@[simp] theorem release_rxLen : (release s).rxLen = 0 := rfl
@[simp] theorem release_txBuf : (release s).txBuf = s.txBuf := rfl
@[simp] theorem release_txLen : (release s).txLen = s.txLen := rfl
@[simp] theorem release_txIdx : (release s).txIdx = s.txIdx := rfl
@[simp] theorem release_hold : (release s).hold = s.hold := rfl
@[simp] theorem release_sil : (release s).sil = 0#32 := rfl
@[simp] theorem release_txEnR : (release s).txEnR = false := rfl
@[simp] theorem release_pendHook : (release s).pendHook = none := rfl
@[simp] theorem release_cfg : (release s).cfg = s.cfg := rfl
@[simp] theorem release_t15 : (release s).t15 = s.t15 := rfl
@[simp] theorem release_t35 : (release s).t35 = s.t35 := rfl
@[simp] theorem release_build : (release s).build = s.build := rfl
@[simp] theorem release_coil : (release s).coil = s.coil := rfl
@[simp] theorem release_di : (release s).di = s.di := rfl
@[simp] theorem release_hr : (release s).hr = s.hr := rfl
@[simp] theorem release_ir : (release s).ir = s.ir := rfl
@[simp] theorem release_rxQueue : (release s).rxQueue = s.rxQueue := rfl
@[simp] theorem release_txPending : (release s).txPending = s.txPending := rfl
@[simp] theorem release_out : (release s).out = { s.out with hook := s.pendHook } := rfl
@[simp] theorem release_events : (release s).events = s.events ++ [.release] := rfl
@[simp] theorem release_tick : (release s).tick = s.tick := rfl
@[simp] theorem release_env : (release s).env = s.env := rfl

/-! ## popByte -/

@[simp] theorem popByte_phase (q : List Byte) : (popByte q s).phase = s.phase := rfl
@[simp] theorem popByte_rxBuf (q : List Byte) : (popByte q s).rxBuf = s.rxBuf := rfl
@[simp] theorem popByte_rxLen (q : List Byte) : (popByte q s).rxLen = s.rxLen := rfl
@[simp] theorem popByte_txBuf (q : List Byte) : (popByte q s).txBuf = s.txBuf := rfl
@[simp] theorem popByte_txLen (q : List Byte) : (popByte q s).txLen = s.txLen := rfl
@[simp] theorem popByte_txIdx (q : List Byte) : (popByte q s).txIdx = s.txIdx := rfl
@[simp] theorem popByte_hold (q : List Byte) : (popByte q s).hold = s.hold := rfl
@[simp] theorem popByte_sil (q : List Byte) : (popByte q s).sil = s.sil := rfl
@[simp] theorem popByte_txEnR (q : List Byte) : (popByte q s).txEnR = s.txEnR := rfl
@[simp] theorem popByte_pendHook (q : List Byte) : (popByte q s).pendHook = s.pendHook := rfl
@[simp] theorem popByte_cfg (q : List Byte) : (popByte q s).cfg = s.cfg := rfl
@[simp] theorem popByte_t15 (q : List Byte) : (popByte q s).t15 = s.t15 := rfl
@[simp] theorem popByte_t35 (q : List Byte) : (popByte q s).t35 = s.t35 := rfl
@[simp] theorem popByte_build (q : List Byte) : (popByte q s).build = s.build := rfl
@[simp] theorem popByte_coil (q : List Byte) : (popByte q s).coil = s.coil := rfl
@[simp] theorem popByte_di (q : List Byte) : (popByte q s).di = s.di := rfl
@[simp] theorem popByte_hr (q : List Byte) : (popByte q s).hr = s.hr := rfl
@[simp] theorem popByte_ir (q : List Byte) : (popByte q s).ir = s.ir := rfl
@[simp] theorem popByte_rxQueue (q : List Byte) : (popByte q s).rxQueue = q := rfl
@[simp] theorem popByte_txPending (q : List Byte) : (popByte q s).txPending = s.txPending := rfl
@[simp] theorem popByte_out (q : List Byte) : (popByte q s).out = { s.out with rxPop := true } := rfl
@[simp] theorem popByte_events (q : List Byte) : (popByte q s).events = s.events := rfl
@[simp] theorem popByte_tick (q : List Byte) : (popByte q s).tick = s.tick := rfl
@[simp] theorem popByte_env (q : List Byte) : (popByte q s).env = s.env := rfl

/-! ## countSilence -/

@[simp] theorem countSilence_phase : (countSilence s).phase = s.phase := rfl
@[simp] theorem countSilence_rxBuf : (countSilence s).rxBuf = s.rxBuf := rfl
@[simp] theorem countSilence_rxLen : (countSilence s).rxLen = s.rxLen := rfl
@[simp] theorem countSilence_txBuf : (countSilence s).txBuf = s.txBuf := rfl
@[simp] theorem countSilence_txLen : (countSilence s).txLen = s.txLen := rfl
@[simp] theorem countSilence_txIdx : (countSilence s).txIdx = s.txIdx := rfl
@[simp] theorem countSilence_hold : (countSilence s).hold = s.hold := rfl
@[simp] theorem countSilence_sil : (countSilence s).sil = satIncr s.sil := rfl
@[simp] theorem countSilence_txEnR : (countSilence s).txEnR = s.txEnR := rfl
@[simp] theorem countSilence_pendHook : (countSilence s).pendHook = s.pendHook := rfl
@[simp] theorem countSilence_cfg : (countSilence s).cfg = s.cfg := rfl
@[simp] theorem countSilence_t15 : (countSilence s).t15 = s.t15 := rfl
@[simp] theorem countSilence_t35 : (countSilence s).t35 = s.t35 := rfl
@[simp] theorem countSilence_build : (countSilence s).build = s.build := rfl
@[simp] theorem countSilence_coil : (countSilence s).coil = s.coil := rfl
@[simp] theorem countSilence_di : (countSilence s).di = s.di := rfl
@[simp] theorem countSilence_hr : (countSilence s).hr = s.hr := rfl
@[simp] theorem countSilence_ir : (countSilence s).ir = s.ir := rfl
@[simp] theorem countSilence_rxQueue : (countSilence s).rxQueue = s.rxQueue := rfl
@[simp] theorem countSilence_txPending : (countSilence s).txPending = s.txPending := rfl
@[simp] theorem countSilence_out : (countSilence s).out = s.out := rfl
@[simp] theorem countSilence_events : (countSilence s).events = s.events := rfl
@[simp] theorem countSilence_tick : (countSilence s).tick = s.tick := rfl
@[simp] theorem countSilence_env : (countSilence s).env = s.env := rfl

/-! ## receiveTransport -/

@[simp] theorem receiveTransport_phase (bs : List Byte) : (receiveTransport bs s).phase = s.phase := rfl
@[simp] theorem receiveTransport_rxBuf (bs : List Byte) : (receiveTransport bs s).rxBuf = s.rxBuf := rfl
@[simp] theorem receiveTransport_rxLen (bs : List Byte) : (receiveTransport bs s).rxLen = s.rxLen := rfl
@[simp] theorem receiveTransport_txBuf (bs : List Byte) : (receiveTransport bs s).txBuf = s.txBuf := rfl
@[simp] theorem receiveTransport_txLen (bs : List Byte) : (receiveTransport bs s).txLen = s.txLen := rfl
@[simp] theorem receiveTransport_txIdx (bs : List Byte) : (receiveTransport bs s).txIdx = s.txIdx := rfl
@[simp] theorem receiveTransport_hold (bs : List Byte) : (receiveTransport bs s).hold = s.hold := rfl
@[simp] theorem receiveTransport_sil (bs : List Byte) : (receiveTransport bs s).sil = s.sil := rfl
@[simp] theorem receiveTransport_txEnR (bs : List Byte) : (receiveTransport bs s).txEnR = s.txEnR := rfl
@[simp] theorem receiveTransport_pendHook (bs : List Byte) : (receiveTransport bs s).pendHook = s.pendHook := rfl
@[simp] theorem receiveTransport_cfg (bs : List Byte) : (receiveTransport bs s).cfg = s.cfg := rfl
@[simp] theorem receiveTransport_t15 (bs : List Byte) : (receiveTransport bs s).t15 = s.t15 := rfl
@[simp] theorem receiveTransport_t35 (bs : List Byte) : (receiveTransport bs s).t35 = s.t35 := rfl
@[simp] theorem receiveTransport_build (bs : List Byte) : (receiveTransport bs s).build = s.build := rfl
@[simp] theorem receiveTransport_coil (bs : List Byte) : (receiveTransport bs s).coil = s.coil := rfl
@[simp] theorem receiveTransport_di (bs : List Byte) : (receiveTransport bs s).di = s.di := rfl
@[simp] theorem receiveTransport_hr (bs : List Byte) : (receiveTransport bs s).hr = s.hr := rfl
@[simp] theorem receiveTransport_ir (bs : List Byte) : (receiveTransport bs s).ir = s.ir := rfl
@[simp] theorem receiveTransport_rxQueue (bs : List Byte) : (receiveTransport bs s).rxQueue = s.rxQueue ++ bs := rfl
@[simp] theorem receiveTransport_txPending (bs : List Byte) : (receiveTransport bs s).txPending = s.txPending := rfl
@[simp] theorem receiveTransport_out (bs : List Byte) : (receiveTransport bs s).out = s.out := rfl
@[simp] theorem receiveTransport_events (bs : List Byte) : (receiveTransport bs s).events = s.events := rfl
@[simp] theorem receiveTransport_tick (bs : List Byte) : (receiveTransport bs s).tick = s.tick := rfl
@[simp] theorem receiveTransport_env (bs : List Byte) : (receiveTransport bs s).env = s.env := rfl

/-! ## transmitTransport -/

@[simp] theorem transmitTransport_phase (n : Nat) : (transmitTransport n s).phase = s.phase := rfl
@[simp] theorem transmitTransport_rxBuf (n : Nat) : (transmitTransport n s).rxBuf = s.rxBuf := rfl
@[simp] theorem transmitTransport_rxLen (n : Nat) : (transmitTransport n s).rxLen = s.rxLen := rfl
@[simp] theorem transmitTransport_txBuf (n : Nat) : (transmitTransport n s).txBuf = s.txBuf := rfl
@[simp] theorem transmitTransport_txLen (n : Nat) : (transmitTransport n s).txLen = s.txLen := rfl
@[simp] theorem transmitTransport_txIdx (n : Nat) : (transmitTransport n s).txIdx = s.txIdx := rfl
@[simp] theorem transmitTransport_hold (n : Nat) : (transmitTransport n s).hold = s.hold := rfl
@[simp] theorem transmitTransport_sil (n : Nat) : (transmitTransport n s).sil = s.sil := rfl
@[simp] theorem transmitTransport_txEnR (n : Nat) : (transmitTransport n s).txEnR = s.txEnR := rfl
@[simp] theorem transmitTransport_pendHook (n : Nat) : (transmitTransport n s).pendHook = s.pendHook := rfl
@[simp] theorem transmitTransport_cfg (n : Nat) : (transmitTransport n s).cfg = s.cfg := rfl
@[simp] theorem transmitTransport_t15 (n : Nat) : (transmitTransport n s).t15 = s.t15 := rfl
@[simp] theorem transmitTransport_t35 (n : Nat) : (transmitTransport n s).t35 = s.t35 := rfl
@[simp] theorem transmitTransport_build (n : Nat) : (transmitTransport n s).build = s.build := rfl
@[simp] theorem transmitTransport_coil (n : Nat) : (transmitTransport n s).coil = s.coil := rfl
@[simp] theorem transmitTransport_di (n : Nat) : (transmitTransport n s).di = s.di := rfl
@[simp] theorem transmitTransport_hr (n : Nat) : (transmitTransport n s).hr = s.hr := rfl
@[simp] theorem transmitTransport_ir (n : Nat) : (transmitTransport n s).ir = s.ir := rfl
@[simp] theorem transmitTransport_rxQueue (n : Nat) : (transmitTransport n s).rxQueue = s.rxQueue := rfl
@[simp] theorem transmitTransport_txPending (n : Nat) : (transmitTransport n s).txPending = s.txPending.drop n := rfl
@[simp] theorem transmitTransport_out (n : Nat) : (transmitTransport n s).out = s.out := rfl
@[simp] theorem transmitTransport_events (n : Nat) : (transmitTransport n s).events = s.events := rfl
@[simp] theorem transmitTransport_tick (n : Nat) : (transmitTransport n s).tick = s.tick := rfl
@[simp] theorem transmitTransport_env (n : Nat) : (transmitTransport n s).env = s.env := rfl

/-! ## newTick -/

@[simp] theorem newTick_phase : (newTick s).phase = s.phase := rfl
@[simp] theorem newTick_rxBuf : (newTick s).rxBuf = s.rxBuf := rfl
@[simp] theorem newTick_rxLen : (newTick s).rxLen = s.rxLen := rfl
@[simp] theorem newTick_txBuf : (newTick s).txBuf = s.txBuf := rfl
@[simp] theorem newTick_txLen : (newTick s).txLen = s.txLen := rfl
@[simp] theorem newTick_txIdx : (newTick s).txIdx = s.txIdx := rfl
@[simp] theorem newTick_hold : (newTick s).hold = s.hold := rfl
@[simp] theorem newTick_sil : (newTick s).sil = s.sil := rfl
@[simp] theorem newTick_txEnR : (newTick s).txEnR = s.txEnR := rfl
@[simp] theorem newTick_pendHook : (newTick s).pendHook = s.pendHook := rfl
@[simp] theorem newTick_cfg : (newTick s).cfg = s.cfg := rfl
@[simp] theorem newTick_t15 : (newTick s).t15 = s.t15 := rfl
@[simp] theorem newTick_t35 : (newTick s).t35 = s.t35 := rfl
@[simp] theorem newTick_build : (newTick s).build = s.build := rfl
@[simp] theorem newTick_coil : (newTick s).coil = s.coil := rfl
@[simp] theorem newTick_di : (newTick s).di = s.di := rfl
@[simp] theorem newTick_hr : (newTick s).hr = s.hr := rfl
@[simp] theorem newTick_ir : (newTick s).ir = s.ir := rfl
@[simp] theorem newTick_rxQueue : (newTick s).rxQueue = s.rxQueue := rfl
@[simp] theorem newTick_txPending : (newTick s).txPending = s.txPending := rfl
@[simp] theorem newTick_out : (newTick s).out = {} := rfl
@[simp] theorem newTick_events : (newTick s).events = s.events := rfl
@[simp] theorem newTick_tick : (newTick s).tick = s.tick + 1 := rfl
@[simp] theorem newTick_env : (newTick s).env = s.env.drop 1 := rfl

/-! ## earlyByte -/

@[simp] theorem earlyByte_phase (b : Byte) : (earlyByte b s).phase = s.phase := rfl
@[simp] theorem earlyByte_rxBuf (b : Byte) : (earlyByte b s).rxBuf = s.rxBuf := rfl
@[simp] theorem earlyByte_rxLen (b : Byte) : (earlyByte b s).rxLen = s.rxLen := rfl
@[simp] theorem earlyByte_txBuf (b : Byte) : (earlyByte b s).txBuf = s.txBuf := rfl
@[simp] theorem earlyByte_txLen (b : Byte) : (earlyByte b s).txLen = s.txLen := rfl
@[simp] theorem earlyByte_txIdx (b : Byte) : (earlyByte b s).txIdx = s.txIdx := rfl
@[simp] theorem earlyByte_hold (b : Byte) : (earlyByte b s).hold = s.hold := rfl
@[simp] theorem earlyByte_sil (b : Byte) : (earlyByte b s).sil = 0#32 := rfl
@[simp] theorem earlyByte_txEnR (b : Byte) : (earlyByte b s).txEnR = s.txEnR := rfl
@[simp] theorem earlyByte_pendHook (b : Byte) : (earlyByte b s).pendHook = s.pendHook := rfl
@[simp] theorem earlyByte_cfg (b : Byte) : (earlyByte b s).cfg = s.cfg := rfl
@[simp] theorem earlyByte_t15 (b : Byte) : (earlyByte b s).t15 = s.t15 := rfl
@[simp] theorem earlyByte_t35 (b : Byte) : (earlyByte b s).t35 = s.t35 := rfl
@[simp] theorem earlyByte_build (b : Byte) : (earlyByte b s).build = s.build := rfl
@[simp] theorem earlyByte_coil (b : Byte) : (earlyByte b s).coil = s.coil := rfl
@[simp] theorem earlyByte_di (b : Byte) : (earlyByte b s).di = s.di := rfl
@[simp] theorem earlyByte_hr (b : Byte) : (earlyByte b s).hr = s.hr := rfl
@[simp] theorem earlyByte_ir (b : Byte) : (earlyByte b s).ir = s.ir := rfl
@[simp] theorem earlyByte_rxQueue (b : Byte) : (earlyByte b s).rxQueue = s.rxQueue := rfl
@[simp] theorem earlyByte_txPending (b : Byte) : (earlyByte b s).txPending = s.txPending := rfl
@[simp] theorem earlyByte_out (b : Byte) : (earlyByte b s).out = s.out := rfl
@[simp] theorem earlyByte_events (b : Byte) : (earlyByte b s).events = s.events ++ [.earlyByte b] := rfl
@[simp] theorem earlyByte_tick (b : Byte) : (earlyByte b s).tick = s.tick := rfl
@[simp] theorem earlyByte_env (b : Byte) : (earlyByte b s).env = s.env := rfl

/-! ## firstByte -/

@[simp] theorem firstByte_phase (b : Byte) : (firstByte b s).phase = .receiving := rfl
@[simp] theorem firstByte_rxBuf (b : Byte) : (firstByte b s).rxBuf = s.rxBuf.set 0 b := rfl
@[simp] theorem firstByte_rxLen (b : Byte) : (firstByte b s).rxLen = 1 := rfl
@[simp] theorem firstByte_txBuf (b : Byte) : (firstByte b s).txBuf = s.txBuf := rfl
@[simp] theorem firstByte_txLen (b : Byte) : (firstByte b s).txLen = s.txLen := rfl
@[simp] theorem firstByte_txIdx (b : Byte) : (firstByte b s).txIdx = s.txIdx := rfl
@[simp] theorem firstByte_hold (b : Byte) : (firstByte b s).hold = s.hold := rfl
@[simp] theorem firstByte_sil (b : Byte) : (firstByte b s).sil = 0#32 := rfl
@[simp] theorem firstByte_txEnR (b : Byte) : (firstByte b s).txEnR = s.txEnR := rfl
@[simp] theorem firstByte_pendHook (b : Byte) : (firstByte b s).pendHook = s.pendHook := rfl
@[simp] theorem firstByte_cfg (b : Byte) : (firstByte b s).cfg = s.cfg := rfl
@[simp] theorem firstByte_t15 (b : Byte) : (firstByte b s).t15 = s.t15 := rfl
@[simp] theorem firstByte_t35 (b : Byte) : (firstByte b s).t35 = s.t35 := rfl
@[simp] theorem firstByte_build (b : Byte) : (firstByte b s).build = s.build := rfl
@[simp] theorem firstByte_coil (b : Byte) : (firstByte b s).coil = s.coil := rfl
@[simp] theorem firstByte_di (b : Byte) : (firstByte b s).di = s.di := rfl
@[simp] theorem firstByte_hr (b : Byte) : (firstByte b s).hr = s.hr := rfl
@[simp] theorem firstByte_ir (b : Byte) : (firstByte b s).ir = s.ir := rfl
@[simp] theorem firstByte_rxQueue (b : Byte) : (firstByte b s).rxQueue = s.rxQueue := rfl
@[simp] theorem firstByte_txPending (b : Byte) : (firstByte b s).txPending = s.txPending := rfl
@[simp] theorem firstByte_out (b : Byte) : (firstByte b s).out = s.out := rfl
@[simp] theorem firstByte_events (b : Byte) : (firstByte b s).events = s.events := rfl
@[simp] theorem firstByte_tick (b : Byte) : (firstByte b s).tick = s.tick := rfl
@[simp] theorem firstByte_env (b : Byte) : (firstByte b s).env = s.env := rfl

/-! ## resetTick -/

@[simp] theorem resetTick_phase (c : Cfg) : (resetTick c s).phase = .idle := rfl
@[simp] theorem resetTick_rxBuf (c : Cfg) : (resetTick c s).rxBuf = (List.range s.build.rxBufCap).map (Config.freeRxByte s.tick) := rfl
@[simp] theorem resetTick_rxLen (c : Cfg) : (resetTick c s).rxLen = 0 := rfl
@[simp] theorem resetTick_txBuf (c : Cfg) : (resetTick c s).txBuf = (List.range s.build.txBufCap).map (Config.freeTxByte s.tick) := rfl
@[simp] theorem resetTick_txLen (c : Cfg) : (resetTick c s).txLen = 0 := rfl
@[simp] theorem resetTick_txIdx (c : Cfg) : (resetTick c s).txIdx = 0 := rfl
@[simp] theorem resetTick_hold (c : Cfg) : (resetTick c s).hold = 0#32 := rfl
@[simp] theorem resetTick_sil (c : Cfg) : (resetTick c s).sil = 0#32 := rfl
@[simp] theorem resetTick_txEnR (c : Cfg) : (resetTick c s).txEnR = false := rfl
@[simp] theorem resetTick_pendHook (c : Cfg) : (resetTick c s).pendHook = none := rfl
@[simp] theorem resetTick_cfg (c : Cfg) : (resetTick c s).cfg = c := rfl
@[simp] theorem resetTick_t15 (c : Cfg) : (resetTick c s).t15 = BitVec.ofNat 32 (charTimeout c) := rfl
@[simp] theorem resetTick_t35 (c : Cfg) : (resetTick c s).t35 = BitVec.ofNat 32 (frameTimeout c) := rfl
@[simp] theorem resetTick_build (c : Cfg) : (resetTick c s).build = s.build := rfl
@[simp] theorem resetTick_coil (c : Cfg) : (resetTick c s).coil = s.coil := rfl
@[simp] theorem resetTick_di (c : Cfg) : (resetTick c s).di = s.di := rfl
@[simp] theorem resetTick_hr (c : Cfg) : (resetTick c s).hr = s.hr := rfl
@[simp] theorem resetTick_ir (c : Cfg) : (resetTick c s).ir = s.ir := rfl
@[simp] theorem resetTick_rxQueue (c : Cfg) : (resetTick c s).rxQueue = s.rxQueue := rfl
@[simp] theorem resetTick_txPending (c : Cfg) : (resetTick c s).txPending = s.txPending := rfl
@[simp] theorem resetTick_out (c : Cfg) : (resetTick c s).out = s.out := rfl
@[simp] theorem resetTick_events (c : Cfg) : (resetTick c s).events = s.events := rfl
@[simp] theorem resetTick_tick (c : Cfg) : (resetTick c s).tick = s.tick := rfl
@[simp] theorem resetTick_env (c : Cfg) : (resetTick c s).env = s.env := rfl

/-! ## bitsWrite -/

@[simp] theorem bitsWrite_phase (sp : BitSpace) (a : Nat) (vs : List Bool) : (s.bitsWrite sp a vs).phase = s.phase := by cases sp <;> rfl
@[simp] theorem bitsWrite_rxBuf (sp : BitSpace) (a : Nat) (vs : List Bool) : (s.bitsWrite sp a vs).rxBuf = s.rxBuf := by cases sp <;> rfl
@[simp] theorem bitsWrite_rxLen (sp : BitSpace) (a : Nat) (vs : List Bool) : (s.bitsWrite sp a vs).rxLen = s.rxLen := by cases sp <;> rfl
@[simp] theorem bitsWrite_txBuf (sp : BitSpace) (a : Nat) (vs : List Bool) : (s.bitsWrite sp a vs).txBuf = s.txBuf := by cases sp <;> rfl
@[simp] theorem bitsWrite_txLen (sp : BitSpace) (a : Nat) (vs : List Bool) : (s.bitsWrite sp a vs).txLen = s.txLen := by cases sp <;> rfl
@[simp] theorem bitsWrite_txIdx (sp : BitSpace) (a : Nat) (vs : List Bool) : (s.bitsWrite sp a vs).txIdx = s.txIdx := by cases sp <;> rfl
@[simp] theorem bitsWrite_hold (sp : BitSpace) (a : Nat) (vs : List Bool) : (s.bitsWrite sp a vs).hold = s.hold := by cases sp <;> rfl
@[simp] theorem bitsWrite_sil (sp : BitSpace) (a : Nat) (vs : List Bool) : (s.bitsWrite sp a vs).sil = s.sil := by cases sp <;> rfl
@[simp] theorem bitsWrite_txEnR (sp : BitSpace) (a : Nat) (vs : List Bool) : (s.bitsWrite sp a vs).txEnR = s.txEnR := by cases sp <;> rfl
@[simp] theorem bitsWrite_pendHook (sp : BitSpace) (a : Nat) (vs : List Bool) : (s.bitsWrite sp a vs).pendHook = s.pendHook := by cases sp <;> rfl
@[simp] theorem bitsWrite_cfg (sp : BitSpace) (a : Nat) (vs : List Bool) : (s.bitsWrite sp a vs).cfg = s.cfg := by cases sp <;> rfl
@[simp] theorem bitsWrite_t15 (sp : BitSpace) (a : Nat) (vs : List Bool) : (s.bitsWrite sp a vs).t15 = s.t15 := by cases sp <;> rfl
@[simp] theorem bitsWrite_t35 (sp : BitSpace) (a : Nat) (vs : List Bool) : (s.bitsWrite sp a vs).t35 = s.t35 := by cases sp <;> rfl
@[simp] theorem bitsWrite_build (sp : BitSpace) (a : Nat) (vs : List Bool) : (s.bitsWrite sp a vs).build = s.build := by cases sp <;> rfl
@[simp] theorem bitsWrite_hr (sp : BitSpace) (a : Nat) (vs : List Bool) : (s.bitsWrite sp a vs).hr = s.hr := by cases sp <;> rfl
@[simp] theorem bitsWrite_ir (sp : BitSpace) (a : Nat) (vs : List Bool) : (s.bitsWrite sp a vs).ir = s.ir := by cases sp <;> rfl
@[simp] theorem bitsWrite_rxQueue (sp : BitSpace) (a : Nat) (vs : List Bool) : (s.bitsWrite sp a vs).rxQueue = s.rxQueue := by cases sp <;> rfl
@[simp] theorem bitsWrite_txPending (sp : BitSpace) (a : Nat) (vs : List Bool) : (s.bitsWrite sp a vs).txPending = s.txPending := by cases sp <;> rfl
@[simp] theorem bitsWrite_out (sp : BitSpace) (a : Nat) (vs : List Bool) : (s.bitsWrite sp a vs).out = s.out := by cases sp <;> rfl
@[simp] theorem bitsWrite_events (sp : BitSpace) (a : Nat) (vs : List Bool) : (s.bitsWrite sp a vs).events = s.events := by cases sp <;> rfl
@[simp] theorem bitsWrite_tick (sp : BitSpace) (a : Nat) (vs : List Bool) : (s.bitsWrite sp a vs).tick = s.tick := by cases sp <;> rfl
@[simp] theorem bitsWrite_env (sp : BitSpace) (a : Nat) (vs : List Bool) : (s.bitsWrite sp a vs).env = s.env := by cases sp <;> rfl

/-! ## wordsWrite -/

@[simp] theorem wordsWrite_phase (sp : WordSpace) (a : Nat) (vs : List Word) : (s.wordsWrite sp a vs).phase = s.phase := by cases sp <;> rfl
@[simp] theorem wordsWrite_rxBuf (sp : WordSpace) (a : Nat) (vs : List Word) : (s.wordsWrite sp a vs).rxBuf = s.rxBuf := by cases sp <;> rfl
@[simp] theorem wordsWrite_rxLen (sp : WordSpace) (a : Nat) (vs : List Word) : (s.wordsWrite sp a vs).rxLen = s.rxLen := by cases sp <;> rfl
@[simp] theorem wordsWrite_txBuf (sp : WordSpace) (a : Nat) (vs : List Word) : (s.wordsWrite sp a vs).txBuf = s.txBuf := by cases sp <;> rfl
@[simp] theorem wordsWrite_txLen (sp : WordSpace) (a : Nat) (vs : List Word) : (s.wordsWrite sp a vs).txLen = s.txLen := by cases sp <;> rfl
@[simp] theorem wordsWrite_txIdx (sp : WordSpace) (a : Nat) (vs : List Word) : (s.wordsWrite sp a vs).txIdx = s.txIdx := by cases sp <;> rfl
@[simp] theorem wordsWrite_hold (sp : WordSpace) (a : Nat) (vs : List Word) : (s.wordsWrite sp a vs).hold = s.hold := by cases sp <;> rfl
@[simp] theorem wordsWrite_sil (sp : WordSpace) (a : Nat) (vs : List Word) : (s.wordsWrite sp a vs).sil = s.sil := by cases sp <;> rfl
@[simp] theorem wordsWrite_txEnR (sp : WordSpace) (a : Nat) (vs : List Word) : (s.wordsWrite sp a vs).txEnR = s.txEnR := by cases sp <;> rfl
@[simp] theorem wordsWrite_pendHook (sp : WordSpace) (a : Nat) (vs : List Word) : (s.wordsWrite sp a vs).pendHook = s.pendHook := by cases sp <;> rfl
@[simp] theorem wordsWrite_cfg (sp : WordSpace) (a : Nat) (vs : List Word) : (s.wordsWrite sp a vs).cfg = s.cfg := by cases sp <;> rfl
@[simp] theorem wordsWrite_t15 (sp : WordSpace) (a : Nat) (vs : List Word) : (s.wordsWrite sp a vs).t15 = s.t15 := by cases sp <;> rfl
@[simp] theorem wordsWrite_t35 (sp : WordSpace) (a : Nat) (vs : List Word) : (s.wordsWrite sp a vs).t35 = s.t35 := by cases sp <;> rfl
@[simp] theorem wordsWrite_build (sp : WordSpace) (a : Nat) (vs : List Word) : (s.wordsWrite sp a vs).build = s.build := by cases sp <;> rfl
@[simp] theorem wordsWrite_coil (sp : WordSpace) (a : Nat) (vs : List Word) : (s.wordsWrite sp a vs).coil = s.coil := by cases sp <;> rfl
@[simp] theorem wordsWrite_di (sp : WordSpace) (a : Nat) (vs : List Word) : (s.wordsWrite sp a vs).di = s.di := by cases sp <;> rfl
@[simp] theorem wordsWrite_rxQueue (sp : WordSpace) (a : Nat) (vs : List Word) : (s.wordsWrite sp a vs).rxQueue = s.rxQueue := by cases sp <;> rfl
@[simp] theorem wordsWrite_txPending (sp : WordSpace) (a : Nat) (vs : List Word) : (s.wordsWrite sp a vs).txPending = s.txPending := by cases sp <;> rfl
@[simp] theorem wordsWrite_out (sp : WordSpace) (a : Nat) (vs : List Word) : (s.wordsWrite sp a vs).out = s.out := by cases sp <;> rfl
@[simp] theorem wordsWrite_events (sp : WordSpace) (a : Nat) (vs : List Word) : (s.wordsWrite sp a vs).events = s.events := by cases sp <;> rfl
@[simp] theorem wordsWrite_tick (sp : WordSpace) (a : Nat) (vs : List Word) : (s.wordsWrite sp a vs).tick = s.tick := by cases sp <;> rfl
@[simp] theorem wordsWrite_env (sp : WordSpace) (a : Nat) (vs : List Word) : (s.wordsWrite sp a vs).env = s.env := by cases sp <;> rfl

/-! ## notify -/

@[simp] theorem notify_phase (w : HookTime) (h : Hook) : (notify w h s).phase = s.phase := by unfold notify; split <;> cases w <;> rfl
@[simp] theorem notify_rxBuf (w : HookTime) (h : Hook) : (notify w h s).rxBuf = s.rxBuf := by unfold notify; split <;> cases w <;> rfl
@[simp] theorem notify_rxLen (w : HookTime) (h : Hook) : (notify w h s).rxLen = s.rxLen := by unfold notify; split <;> cases w <;> rfl
@[simp] theorem notify_txBuf (w : HookTime) (h : Hook) : (notify w h s).txBuf = s.txBuf := by unfold notify; split <;> cases w <;> rfl
@[simp] theorem notify_txLen (w : HookTime) (h : Hook) : (notify w h s).txLen = s.txLen := by unfold notify; split <;> cases w <;> rfl
@[simp] theorem notify_txIdx (w : HookTime) (h : Hook) : (notify w h s).txIdx = s.txIdx := by unfold notify; split <;> cases w <;> rfl
@[simp] theorem notify_hold (w : HookTime) (h : Hook) : (notify w h s).hold = s.hold := by unfold notify; split <;> cases w <;> rfl
@[simp] theorem notify_sil (w : HookTime) (h : Hook) : (notify w h s).sil = s.sil := by unfold notify; split <;> cases w <;> rfl
@[simp] theorem notify_txEnR (w : HookTime) (h : Hook) : (notify w h s).txEnR = s.txEnR := by unfold notify; split <;> cases w <;> rfl
@[simp] theorem notify_cfg (w : HookTime) (h : Hook) : (notify w h s).cfg = s.cfg := by unfold notify; split <;> cases w <;> rfl
@[simp] theorem notify_t15 (w : HookTime) (h : Hook) : (notify w h s).t15 = s.t15 := by unfold notify; split <;> cases w <;> rfl
@[simp] theorem notify_t35 (w : HookTime) (h : Hook) : (notify w h s).t35 = s.t35 := by unfold notify; split <;> cases w <;> rfl
@[simp] theorem notify_build (w : HookTime) (h : Hook) : (notify w h s).build = s.build := by unfold notify; split <;> cases w <;> rfl
@[simp] theorem notify_coil (w : HookTime) (h : Hook) : (notify w h s).coil = s.coil := by unfold notify; split <;> cases w <;> rfl
@[simp] theorem notify_di (w : HookTime) (h : Hook) : (notify w h s).di = s.di := by unfold notify; split <;> cases w <;> rfl
@[simp] theorem notify_hr (w : HookTime) (h : Hook) : (notify w h s).hr = s.hr := by unfold notify; split <;> cases w <;> rfl
@[simp] theorem notify_ir (w : HookTime) (h : Hook) : (notify w h s).ir = s.ir := by unfold notify; split <;> cases w <;> rfl
@[simp] theorem notify_rxQueue (w : HookTime) (h : Hook) : (notify w h s).rxQueue = s.rxQueue := by unfold notify; split <;> cases w <;> rfl
@[simp] theorem notify_txPending (w : HookTime) (h : Hook) : (notify w h s).txPending = s.txPending := by unfold notify; split <;> cases w <;> rfl
@[simp] theorem notify_events (w : HookTime) (h : Hook) : (notify w h s).events = s.events := by unfold notify; split <;> cases w <;> rfl
@[simp] theorem notify_tick (w : HookTime) (h : Hook) : (notify w h s).tick = s.tick := by unfold notify; split <;> cases w <;> rfl
@[simp] theorem notify_env (w : HookTime) (h : Hook) : (notify w h s).env = s.env := by unfold notify; split <;> cases w <;> rfl

@[simp] theorem bitsWrite_di_coil (a : Nat) (vs : List Bool) : (s.bitsWrite .coil a vs).di = s.di := rfl
@[simp] theorem bitsWrite_coil_coil (a : Nat) (vs : List Bool) :
    (s.bitsWrite .coil a vs).coil = cellsWrite unlistedBit s.coil a vs := rfl
@[simp] theorem wordsWrite_ir_hr (a : Nat) (vs : List Word) : (s.wordsWrite .hr a vs).ir = s.ir := rfl
@[simp] theorem wordsWrite_hr_hr (a : Nat) (vs : List Word) :
    (s.wordsWrite .hr a vs).hr = cellsWrite unlistedWord s.hr a vs := rfl

end Sys2Proof.Machine
end

