-- ==== Sys2Proof/Laws/Memory.lean ====
section
/-! SUPPORT. The laws of the data tables: every operation keeps the canonical form, a read sees the last write to its
address, and a write leaves every other address alone. -/

namespace Sys2Proof.Machine

variable {α : Type} [DecidableEq α] {d : α}

theorem wfFrom_mono {lo lo' : Nat} {t : List (Nat × α)} (h : lo' ≤ lo) (w : wfFrom d lo t = true) :
    wfFrom d lo' t = true := by
  cases t with
  | nil => rfl
  | cons c t => simp [wfFrom] at w ⊢; exact ⟨⟨by omega, w.1.2⟩, w.2⟩

/-- Below the first address of a canonical list nothing is listed. -/
theorem cellGet_below {lo : Nat} {t : List (Nat × α)} (w : wfFrom d lo t = true) {a : Nat} (h : a < lo) :
    cellGet d t a = d := by
  induction t generalizing lo with
  | nil => rfl
  | cons c t ih =>
    simp [wfFrom] at w
    have hne : a ≠ c.1 := by omega
    simp [cellGet, hne]
    exact ih w.2 (by omega)

theorem cellSet_wfFrom {lo : Nat} {t : List (Nat × α)} (w : wfFrom d lo t = true) {a : Nat} (h : lo ≤ a) (v : α) :
    wfFrom d lo (cellSet d t a v) = true := by
  induction t generalizing lo with
  | nil => by_cases hv : v = d <;> simp [cellSet, wfFrom, hv, h]
  | cons c t ih =>
    obtain ⟨b, x⟩ := c
    simp [wfFrom] at w
    unfold cellSet
    by_cases hab : a < b
    · by_cases hv : v = d
      · simp [hab, hv, wfFrom, w]
      · simp [hab, hv, wfFrom, w, h]
    · by_cases he : a = b
      · subst he
        by_cases hv : v = d
        · simpa [hv] using wfFrom_mono (by omega) w.2
        · simp [hv, wfFrom, w]
      · simp [hab, he, wfFrom, w, ih w.2 (show b + 1 ≤ a by omega)]

/-- A store keeps the canonical form. -/
theorem cellSet_wf {t : List (Nat × α)} (w : Memory.wf d t = true) (a : Nat) (v : α) :
    Memory.wf d (cellSet d t a v) = true := cellSet_wfFrom w (Nat.zero_le a) v

/-- A sequence of stores keeps the canonical form. -/
theorem cellsWrite_wf (vs : List α) {t : List (Nat × α)} (w : Memory.wf d t = true) (a : Nat) :
    Memory.wf d (cellsWrite d t a vs) = true := by
  induction vs generalizing t a with
  | nil => exact w
  | cons v vs ih => exact ih (cellSet_wf w a v) (a + 1)

theorem cellGet_cellSet_from {lo : Nat} {t : List (Nat × α)} (w : wfFrom d lo t = true) (a : Nat) (v : α) (b : Nat) :
    cellGet d (cellSet d t a v) b = if b = a then v else cellGet d t b := by
  induction t generalizing lo with
  | nil =>
    by_cases hv : v = d <;> by_cases hb : b = a <;> simp [cellSet, cellGet, hv, hb]
  | cons c t ih =>
    obtain ⟨e, x⟩ := c
    simp [wfFrom] at w
    unfold cellSet
    by_cases hae : a < e
    · by_cases hv : v = d
      · by_cases hb : b = a
        · subst hb
          have := cellGet_below w.2 (show b < e + 1 by omega)
          simp [hae, hv, cellGet, show b ≠ e by omega, this]
        · simp [hae, hv, hb]
      · by_cases hb : b = a <;> simp [hae, hv, hb, cellGet]
    · by_cases he : a = e
      · subst he
        by_cases hv : v = d
        · by_cases hb : b = a
          · subst hb; simp [hv, cellGet_below w.2 (show b < b + 1 by omega)]
          · simp [hv, hb, cellGet]
        · by_cases hb : b = a <;> simp [hv, hb, cellGet]
      · by_cases hb : b = e
        · have hne : b ≠ a := by omega
          simp [hae, he, hb, cellGet, show e ≠ a by omega]
        · simp [hae, he, hb, cellGet, ih w.2]

/-- A read after a store: the value stored, or what stood there before. -/
theorem cellGet_cellSet {t : List (Nat × α)} (w : Memory.wf d t = true) (a : Nat) (v : α) (b : Nat) :
    cellGet d (cellSet d t a v) b = if b = a then v else cellGet d t b := cellGet_cellSet_from w a v b

/-- A read after a sequence of stores. -/
theorem cellGet_cellsWrite (vs : List α) {t : List (Nat × α)} (w : Memory.wf d t = true) (a b : Nat) :
    cellGet d (cellsWrite d t a vs) b =
      if a ≤ b ∧ b < a + vs.length then vs.getD (b - a) d else cellGet d t b := by
  induction vs generalizing t a with
  | nil => simp [cellsWrite]
  | cons v vs ih =>
    rw [cellsWrite, ih (cellSet_wf w a v), cellGet_cellSet w]
    by_cases hb : b = a
    · subst hb; simp
    · by_cases hr : a + 1 ≤ b ∧ b < a + 1 + vs.length
      · have hs : b - a = (b - (a + 1)) + 1 := by omega
        have hr' : a ≤ b ∧ b < a + (v :: vs).length := by simp; omega
        rw [if_pos hr, if_pos hr', hs]; simp
      · have hr' : ¬ (a ≤ b ∧ b < a + (v :: vs).length) := by simp; omega
        rw [if_neg hr, if_neg hb, if_neg hr']

@[simp] theorem cellsRead_length {β : Type} (e : β) (t : List (Nat × β)) (a n : Nat) :
    (cellsRead e t a n).length = n := by simp [cellsRead]

theorem cellsRead_getElem? {β : Type} (e : β) (t : List (Nat × β)) (a n i : Nat) (h : i < n) :
    (cellsRead e t a n)[i]? = some (cellGet e t (a + i)) := by simp [cellsRead, h]

/-- Canonical lists that read alike are equal: equal memories are equal data. -/
theorem wfFrom_ext {lo lo' : Nat} {t u : List (Nat × α)} (ht : wfFrom d lo t = true) (hu : wfFrom d lo' u = true)
    (h : ∀ a, cellGet d t a = cellGet d u a) : t = u := by
  induction t generalizing lo lo' u with
  | nil =>
    cases u with
    | nil => rfl
    | cons c u =>
      simp [wfFrom] at hu
      exact absurd (by simpa [cellGet] using (h c.1).symm) hu.1.2
  | cons c t ih =>
    obtain ⟨b, x⟩ := c
    simp [wfFrom] at ht
    cases u with
    | nil => exact absurd (by simpa [cellGet] using h b) ht.1.2
    | cons e u =>
      obtain ⟨b', x'⟩ := e
      simp [wfFrom] at hu
      have hb : b = b' := by
        rcases Nat.lt_trichotomy b b' with hlt | heq | hgt
        · have hx := h b
          have := cellGet_below hu.2 (show b < b' + 1 by omega)
          simp [cellGet, show b ≠ b' by omega, this] at hx
          exact absurd hx ht.1.2
        · exact heq
        · have hx := h b'
          have := cellGet_below ht.2 (show b' < b + 1 by omega)
          simp [cellGet, show b' ≠ b by omega, this] at hx
          exact absurd hx.symm hu.1.2
      subst hb
      have hx : x = x' := by simpa [cellGet] using h b
      subst hx
      have : t = u := by
        apply ih ht.2 hu.2
        intro a
        by_cases hab : a = b
        · subst hab; rw [cellGet_below ht.2 (Nat.lt_succ_self a), cellGet_below hu.2 (Nat.lt_succ_self a)]
        · simpa [cellGet, hab] using h a
      rw [this]

variable {s : State}

theorem memoryWf_iff : s.memoryWf = true ↔ Memory.wf unlistedBit s.coil = true ∧ Memory.wf unlistedBit s.di = true ∧
    Memory.wf unlistedWord s.hr = true ∧ Memory.wf unlistedWord s.ir = true := by
  simp [State.memoryWf, and_assoc]

/-- The canonical form depends on the four tables alone. -/
theorem memoryWf_congr {t : State} (hc : t.coil = s.coil) (hd : t.di = s.di) (hh : t.hr = s.hr) (hi : t.ir = s.ir) :
    t.memoryWf = s.memoryWf := by simp [State.memoryWf, hc, hd, hh, hi]

/-- `MemWrite` of bits keeps all four tables canonical. -/
theorem bitsWrite_wf (w : s.memoryWf = true) (sp : BitSpace) (a : Nat) (vs : List Bool) :
    (s.bitsWrite sp a vs).memoryWf = true := by
  rw [memoryWf_iff] at w ⊢
  cases sp
  · exact ⟨cellsWrite_wf vs w.1 a, w.2⟩
  · exact ⟨w.1, cellsWrite_wf vs w.2.1 a, w.2.2⟩

/-- `MemWrite` of words keeps all four tables canonical. -/
theorem wordsWrite_wf (w : s.memoryWf = true) (sp : WordSpace) (a : Nat) (vs : List Word) :
    (s.wordsWrite sp a vs).memoryWf = true := by
  rw [memoryWf_iff] at w ⊢
  cases sp
  · exact ⟨w.1, w.2.1, cellsWrite_wf vs w.2.2.1 a, w.2.2.2⟩
  · exact ⟨w.1, w.2.1, w.2.2.1, cellsWrite_wf vs w.2.2.2 a⟩

/-- `State.reset`'s memory has the canonical form. -/
theorem reset_memoryWf : State.reset.memoryWf = true := by decide

/-- Reading bits after writing bits. -/
theorem bitAt_bitsWrite (w : s.memoryWf = true) (sp sp' : BitSpace) (a b : Nat) (vs : List Bool) :
    (s.bitsWrite sp a vs).bitAt sp' b =
      if sp' = sp ∧ a ≤ b ∧ b < a + vs.length then vs.getD (b - a) unlistedBit else s.bitAt sp' b := by
  rw [memoryWf_iff] at w
  cases sp <;> cases sp' <;> simp [State.bitAt, State.bits, State.bitsWrite]
  · exact cellGet_cellsWrite vs w.1 a b
  · exact cellGet_cellsWrite vs w.2.1 a b

/-- Reading words after writing words. -/
theorem wordAt_wordsWrite (w : s.memoryWf = true) (sp sp' : WordSpace) (a b : Nat) (vs : List Word) :
    (s.wordsWrite sp a vs).wordAt sp' b =
      if sp' = sp ∧ a ≤ b ∧ b < a + vs.length then vs.getD (b - a) unlistedWord else s.wordAt sp' b := by
  rw [memoryWf_iff] at w
  cases sp <;> cases sp' <;> simp [State.wordAt, State.words, State.wordsWrite]
  · exact cellGet_cellsWrite vs w.2.2.1 a b
  · exact cellGet_cellsWrite vs w.2.2.2 a b

@[simp] theorem bitsRead_length (sp : BitSpace) (a n : Nat) : (s.bitsRead sp a n).length = n := cellsRead_length _ _ _ _

@[simp] theorem wordsRead_length (sp : WordSpace) (a n : Nat) : (s.wordsRead sp a n).length = n := cellsRead_length _ _ _ _

end Sys2Proof.Machine
end

