-- ==== Sys2Proof/Laws/Ops.lean ====
section
/-! SUPPORT. What each shared operation of EXEC can do, said once. -/

namespace Sys2Proof.Machine

variable {s t : State} {u fc : Byte}

/-- The checks of an RQ8 request pass exactly on its fields form, with the table bound, the bounds met and the value legal. -/
theorem checkRq8_eq_ok {count : Nat} {q : Word → Nat} {ok : Word → Bool} {r : Rq8} {a v : Word} :
    checkRq8 count q ok r = .ok (a, v) ↔ r = .fields a v ∧ count ≠ 0 ∧ a.toNat + q v ≤ count ∧ ok v = true := by
  unfold checkRq8
  by_cases hc : count = 0
  · simp [hc]
  · cases r with
    | missized p => simp [hc]
    | fields a' v' =>
      by_cases hb : count < a'.toNat + q v'
      · simp only [hc, hb, if_true, if_false]
        constructor
        · intro h; cases h
        · rintro ⟨h, -, hle, -⟩; cases h; omega
      · by_cases ho : ok v'
        · simp only [hc, hb, ho, if_true, if_false]
          constructor
          · intro h; cases h; exact ⟨rfl, hc, by omega, ho⟩
          · rintro ⟨h, -⟩; cases h; rfl
        · simp only [hc, hb, ho, if_false]
          constructor
          · intro h; cases h
          · rintro ⟨h, -, -, h'⟩; cases h; exact absurd h' ho

/-- The checks of an RQM request pass exactly on its fields form, with the table bound, the bounds met, the quantity within
its limit and the byte count both the expected one and the one that came. -/
theorem checkRqm_eq_ok {count limit : Nat} {bf : Word → Nat} {r : Rqm} {a v : Word} {data : List Byte} :
    checkRqm count limit bf r = .ok (a, v, data) ↔
      ∃ bc, r = .fields a v bc data ∧ count ≠ 0 ∧ a.toNat + v.toNat ≤ count ∧ quantityOk limit v = true ∧
        bc.toNat = bf v ∧ data.length = bf v := by
  unfold checkRqm
  by_cases hc : count = 0
  · simp [hc]
  · cases r with
    | short p => simp [hc]
    | fields a' v' bc d' =>
      by_cases hb : count < a'.toNat + v'.toNat
      · simp only [hc, hb, if_true, if_false]
        constructor
        · intro h; cases h
        · rintro ⟨bc', h, -, hle, -⟩; cases h; omega
      · by_cases ho : (quantityOk limit v' && bc.toNat == bf v' && d'.length == bc.toNat) = true
        · simp only [hc, hb, ho, if_true, if_false]
          simp only [Bool.and_eq_true, beq_iff_eq] at ho
          constructor
          · intro h; cases h; exact ⟨bc, rfl, hc, by omega, ho.1.1, ho.1.2, by omega⟩
          · rintro ⟨bc', h, -⟩; cases h; rfl
        · simp only [hc, hb, ho, if_false]
          constructor
          · intro h; cases h
          · rintro ⟨bc', h, -, -, h1, h2, h3⟩
            cases h
            exact absurd (by simp [h1, h2, h3]) ho

/-- Taking an exception, for a broadcast. -/
theorem raiseExc_bcast (h : bcast u = true) (e : Exc) : raiseExc u fc e s = emit (.bcastExc fc e) (endSilently s) := by
  simp [raiseExc, h]

/-- Taking an exception, for an addressed request. -/
theorem raiseExc_unicast (h : bcast u = false) (e : Exc) :
    raiseExc u fc e s = emit (.exc fc e) (loadReply [u, excFc fc, e.code] s) := by simp [raiseExc, h]

/-- The normal end, for a broadcast. -/
theorem complete_bcast (h : bcast u = true) (p : List Byte) (w : HookTime) (k : Hook) :
    complete u fc p w k s = emit (.bcastOk fc) (endSilently s) := by simp [complete, h]

/-- The normal end, for an addressed request. -/
theorem complete_unicast (h : bcast u = false) (p : List Byte) (w : HookTime) (k : Hook) :
    complete u fc p w k s = emit (.reply fc) (notify w k (loadReply (u :: fc :: p) s)) := by simp [complete, h]

/-- `t` differs from `s` at most in the contents of the two tables the bus may write, and those stay canonical. -/
structure WritesTables (s t : State) : Prop where
  same : t = { s with coil := t.coil, hr := t.hr }
  wf : s.memoryWf = true → t.memoryWf = true

theorem WritesTables.refl (s : State) : WritesTables s s := ⟨rfl, id⟩

theorem writesTables_coil (a : Nat) (vs : List Bool) : WritesTables s (s.bitsWrite .coil a vs) :=
  ⟨rfl, fun w => bitsWrite_wf w .coil a vs⟩

theorem writesTables_hr (a : Nat) (vs : List Word) : WritesTables s (s.wordsWrite .hr a vs) :=
  ⟨rfl, fun w => wordsWrite_wf w .hr a vs⟩

theorem bitReply_length_le (sp : BitSpace) (a v : Word) (h : quantityOk 2000 v = true) :
    (bitReply (s.bitsRead sp a.toNat v.toNat)).length ≤ 251 := by
  simp [quantityOk] at h
  simp [bitReply, bitByteCount]
  omega

theorem wordReply_length_le (sp : WordSpace) (a v : Word) (h : quantityOk 125 v = true) :
    (wordReply (s.wordsRead sp a.toNat v.toNat)).length ≤ 251 := by
  simp [quantityOk] at h
  simp [wordReply]
  omega

theorem readBitsRequest_cases (sp : BitSpace) (r : Rq8) :
    (∃ e, readBitsRequest sp u fc r s = raiseExc u fc e s) ∨
    ∃ p k, p.length ≤ 251 ∧ readBitsRequest sp u fc r s = complete u fc p .pre k s := by
  unfold readBitsRequest
  split
  · exact .inl ⟨_, rfl⟩
  · next a v h => exact .inr ⟨_, _, bitReply_length_le _ _ _ (checkRq8_eq_ok.1 h).2.2.2, rfl⟩

theorem readWordsRequest_cases (sp : WordSpace) (r : Rq8) :
    (∃ e, readWordsRequest sp u fc r s = raiseExc u fc e s) ∨
    ∃ p k, p.length ≤ 251 ∧ readWordsRequest sp u fc r s = complete u fc p .pre k s := by
  unfold readWordsRequest
  split
  · exact .inl ⟨_, rfl⟩
  · next a v h => exact .inr ⟨_, _, wordReply_length_le _ _ _ (checkRq8_eq_ok.1 h).2.2.2, rfl⟩

/-- Everything a request can do in its EXEC tick: raise an exception, or write tables and end normally with a payload that
fits the longest reply. -/
theorem exec_cases (i : Instr) (s : State) :
    (∃ e, exec i s = .next (raiseExc i.unit i.fc e s)) ∨
    ∃ w p time k, WritesTables s w ∧ p.length ≤ 251 ∧ exec i s = .next (complete i.unit i.fc p time k w) := by
  cases i with
  | rc u r =>
    rcases readBitsRequest_cases (s := s) (u := u) (fc := 0x01#8) .coil r with ⟨e, h⟩ | ⟨p, k, hp, h⟩
    · exact .inl ⟨e, congrArg _ h⟩
    · exact .inr ⟨s, p, _, k, .refl s, hp, congrArg _ h⟩
  | rdi u r =>
    rcases readBitsRequest_cases (s := s) (u := u) (fc := 0x02#8) .di r with ⟨e, h⟩ | ⟨p, k, hp, h⟩
    · exact .inl ⟨e, congrArg _ h⟩
    · exact .inr ⟨s, p, _, k, .refl s, hp, congrArg _ h⟩
  | rhr u r =>
    rcases readWordsRequest_cases (s := s) (u := u) (fc := 0x03#8) .hr r with ⟨e, h⟩ | ⟨p, k, hp, h⟩
    · exact .inl ⟨e, congrArg _ h⟩
    · exact .inr ⟨s, p, _, k, .refl s, hp, congrArg _ h⟩
  | rir u r =>
    rcases readWordsRequest_cases (s := s) (u := u) (fc := 0x04#8) .ir r with ⟨e, h⟩ | ⟨p, k, hp, h⟩
    · exact .inl ⟨e, congrArg _ h⟩
    · exact .inr ⟨s, p, _, k, .refl s, hp, congrArg _ h⟩
  | wsc u r =>
    simp only [exec, execWsc, Instr.unit, Instr.fc]
    split
    · exact .inl ⟨_, rfl⟩
    · exact .inr ⟨_, _, _, _, writesTables_coil _ _, by simp [writeReply], rfl⟩
  | wsr u r =>
    simp only [exec, execWsr, Instr.unit, Instr.fc]
    split
    · exact .inl ⟨_, rfl⟩
    · exact .inr ⟨_, _, _, _, writesTables_hr _ _, by simp [writeReply], rfl⟩
  | wmc u r =>
    simp only [exec, execWmc, Instr.unit, Instr.fc]
    split
    · exact .inl ⟨_, rfl⟩
    · exact .inr ⟨_, _, _, _, writesTables_coil _ _, by simp [writeReply], rfl⟩
  | wmr u r =>
    simp only [exec, execWmr, Instr.unit, Instr.fc]
    split
    · exact .inl ⟨_, rfl⟩
    · exact .inr ⟨_, _, _, _, writesTables_hr _ _, by simp [writeReply], rfl⟩

/-- The validator accepts exactly the frames that are long enough, whose CRC matches and whose unit byte is for this unit,
and its verdict says whether the unit byte is 0. -/
theorem validate_eq_accept {unitId : Byte} {f : List Byte} {b : Bool} :
    validate unitId f = .accept b ↔ minFrame ≤ f.length ∧ crcOk f = true ∧ b = bcast (byteAt f 0) ∧
      (bcast (byteAt f 0) = true ∨ unitId = noId ∨ byteAt f 0 = unitId) := by
  unfold validate
  by_cases h1 : f.length < minFrame
  · simp [h1]
  · have h1' : minFrame ≤ f.length := by omega
    by_cases h2 : crcOk f = true
    · rw [if_neg h1, h2]
      simp only [Bool.not_true, Bool.false_eq_true, if_false, h1', true_and]
      generalize byteAt f 0 = x
      by_cases h3 : bcast x = true
      · simp only [h3, if_true, Verdict.accept.injEq, true_or, and_true]
        exact eq_comm
      · have h3' : bcast x = false := by simpa using h3
        by_cases h4 : unitId = noId
        · simp only [h3', h4, beq_self_eq_true, if_true, Bool.false_eq_true, if_false, Verdict.accept.injEq, true_or,
            or_true, and_true]
          exact eq_comm
        · by_cases h5 : x = unitId
          · subst h5
            simp only [h3', h4, beq_iff_eq, if_true, Bool.false_eq_true, if_false, Verdict.accept.injEq, or_true, and_true]
            exact eq_comm
          · simp [h3', h4, h5]
    · have h2' : crcOk f = false := by simpa using h2
      simp [h1, h2']

end Sys2Proof.Machine
end

