-- ==== Sys2Proof/Laws/PerInstr.lean ====
section
/-! SUPPORT. Facts stated per instruction: the shape of every encoding. -/

namespace Sys2Proof.Laws.EncodingShape

/-- The frame of a request is its unit byte, its function code, its payload and two CRC bytes (30_encoding.md R90). -/
def Statement (i : Instr) : Prop :=
  (encode i).length = i.payload.length + 4 ∧ byteAt (encode i) 0 = i.unit ∧ byteAt (encode i) 1 = i.fc ∧
    framePayload (encode i) = i.payload ∧ crcOk (encode i) = true

theorem of_any (i : Instr) : Statement i :=
  ⟨by simp [encode], rfl, rfl, framePayload_withCrc _ _ _, crcOk_withCrc _⟩

theorem rc (u : Byte) (r : Rq8) : Statement (.rc u r) := of_any _
theorem rdi (u : Byte) (r : Rq8) : Statement (.rdi u r) := of_any _
theorem rhr (u : Byte) (r : Rq8) : Statement (.rhr u r) := of_any _
theorem rir (u : Byte) (r : Rq8) : Statement (.rir u r) := of_any _
theorem wsc (u : Byte) (r : Rq8) : Statement (.wsc u r) := of_any _
theorem wsr (u : Byte) (r : Rq8) : Statement (.wsr u r) := of_any _
theorem wmc (u : Byte) (r : Rqm) : Statement (.wmc u r) := of_any _
theorem wmr (u : Byte) (r : Rqm) : Statement (.wmr u r) := of_any _

end Sys2Proof.Laws.EncodingShape
end

