-- ==== Sys2Proof/Laws/Step.lean ====
section
/-! SUPPORT. What a tick can do, said once: the other agents' part, then one of the engine's steps. -/

namespace Sys2Proof.Machine

variable {s t : State}

/-- The application changes nothing but table contents, and keeps them canonical. -/
theorem application_eq (ws : List AppWrite) (s : State) :
    application ws s =
      { s with
        coil := (application ws s).coil, di := (application ws s).di
        hr := (application ws s).hr, ir := (application ws s).ir } ∧
    (s.memoryWf = true → (application ws s).memoryWf = true) := by
  induction ws generalizing s with
  | nil => exact ⟨rfl, id⟩
  | cons w ws ih =>
    obtain ⟨h1, h2⟩ := ih (applyAppWrite w s)
    rcases w with ⟨sp, a, v⟩ | ⟨sp, a, v⟩
    · exact ⟨by cases sp <;> exact h1, fun h => h2 (bitsWrite_wf h sp a.toNat [v])⟩
    · exact ⟨by cases sp <;> exact h1, fun h => h2 (wordsWrite_wf h sp a.toNat [v])⟩

/-- The other agents' part of a tick: queues, outputs, schedule and tick count as stated, table contents, nothing else. -/
theorem beginTick_eq (i : TickInput) (s : State) :
    beginTick i s =
      { s with
        coil := (beginTick i s).coil, di := (beginTick i s).di, hr := (beginTick i s).hr, ir := (beginTick i s).ir
        rxQueue := s.rxQueue ++ i.arrivals
        txPending := s.txPending.drop i.txLeft
        out := {}
        tick := s.tick + 1
        env := s.env.drop 1 } ∧
    (s.memoryWf = true → (beginTick i s).memoryWf = true) := application_eq i.app _

/-- A tick in which the application writes nothing: its other part is plain. -/
theorem beginTick_noApp {i : TickInput} (h : i.app = []) :
    beginTick i s = newTick (transmitTransport i.txLeft (receiveTransport i.arrivals s)) := by
  simp [beginTick, h, application]

/-- A tick that answers a next state: the other agents act, and the engine resets, or is legally configured and steps. -/
theorem engineTick_cases (h : engineTick s = .next t) :
    (∃ c, s.input.rst = some c ∧ t = resetTick c (beginTick s.input s)) ∨
    (s.input.rst = none ∧ (beginTick s.input s).legal = true ∧ phaseStep s.input (beginTick s.input s) = .next t) := by
  unfold engineTick engineStep at h
  split at h
  · next c hc => cases h; exact .inl ⟨c, hc, rfl⟩
  · next hn =>
    split at h
    · next hl => exact .inr ⟨hn, hl, h⟩
    · cases h

/-- EXEC: a silent drop, a request's meaning, or the dispatcher's own exception. -/
theorem execFrame_cases (s : State) :
    (∃ r, validate s.cfg.unitId s.frame = .drop r ∧ execFrame s = .next (dropFrame r s)) ∨
    (∃ b i, validate s.cfg.unitId s.frame = .accept b ∧ decodeBody s.frame = .ok i ∧ execFrame s = exec i s) ∨
    (∃ b e, validate s.cfg.unitId s.frame = .accept b ∧ decodeBody s.frame = .error e ∧
      execFrame s = .next (raiseExc (byteAt s.frame 0) (byteAt s.frame 1) .illegalFunction s)) := by
  unfold execFrame
  split
  · next r h => exact .inl ⟨r, h, rfl⟩
  · next b h =>
    unfold dispatchFrame
    split
    · next i hi => exact .inr (.inl ⟨b, i, h, hi, rfl⟩)
    · next e he => exact .inr (.inr ⟨b, e, h, he, rfl⟩)

/-- The receiver's step on a shown byte. -/
theorem receiveByte_cases (b : Byte) (s : State) :
    (s.phase = .idle ∧ s.sil.toNat < s.t35.toNat ∧ receiveByte b s = earlyByte b s) ∨
    (s.phase = .idle ∧ s.t35.toNat ≤ s.sil.toNat ∧ receiveByte b s = firstByte b s) ∨
    (s.phase ≠ .idle ∧ receiveByte b s = nextByte b s) := by
  unfold receiveByte
  split
  · next h =>
    split
    · next hl => exact .inl ⟨h, hl, rfl⟩
    · next hl => exact .inr (.inl ⟨h, by omega, rfl⟩)
  · next h => exact .inr (.inr ⟨h, rfl⟩)

/-- Appending a byte: it stays in the buffer, or the buffer is full and is discarded. -/
theorem nextByte_cases (b : Byte) (s : State) :
    (s.rxLen + 1 = s.build.rxBufCap ∧ nextByte b s =
      emit .overflow { s with rxBuf := s.rxBuf.set s.rxLen b, rxLen := 0, sil := 0#32, phase := .idle }) ∨
    (s.rxLen + 1 ≠ s.build.rxBufCap ∧
      nextByte b s = { s with rxBuf := s.rxBuf.set s.rxLen b, rxLen := s.rxLen + 1, sil := 0#32 }) := by
  by_cases h : s.rxLen + 1 = s.build.rxBufCap
  · exact .inl ⟨h, by simp [nextByte, h, endSilently]⟩
  · exact .inr ⟨h, by simp [nextByte, h]⟩

/-- The receiver's step in a silent tick. -/
theorem receiveSilence_cases (s : State) :
    (s.phase = .receiving ∧ minFrame ≤ s.rxLen ∧ s.t15.toNat ≤ s.sil.toNat ∧ receiveSilence s = execFrame s) ∨
    (s.phase = .receiving ∧ s.rxLen < minFrame ∧ s.t35.toNat ≤ s.sil.toNat ∧
      receiveSilence s = .next (emit .abandon (endSilently s))) ∨
    receiveSilence s = .next s := by
  unfold receiveSilence
  split
  · next h =>
    split
    · next hc => exact .inl ⟨h, hc.1, hc.2, rfl⟩
    · split
      · next ha => exact .inr (.inl ⟨h, ha.1, ha.2, rfl⟩)
      · exact .inr (.inr rfl)
  · exact .inr (.inr rfl)

/-- The receiver's step: a byte is taken, or a tick of silence is counted. -/
theorem receiveStep_cases (s : State) :
    (∃ b q, s.rxQueue = b :: q ∧ receiveStep s = .next (receiveByte b (popByte q s))) ∨
    (s.rxQueue = [] ∧ receiveStep s = receiveSilence (countSilence s)) := by
  unfold receiveStep
  split
  · next b q h => exact .inl ⟨b, q, h, rfl⟩
  · next h => exact .inr ⟨h, rfl⟩

/-- The transmit step: the byte is not taken, taken, or taken as the last. -/
theorem transmitStep_cases (ready : Bool) (s : State) :
    (ready = false ∧ transmitStep ready s = { s with out := { s.out with tx := some (byteAt s.txBuf s.txIdx) } }) ∨
    (ready = true ∧ s.txIdx + 1 ≠ s.txLen ∧ transmitStep ready s =
      { s with
        out := { s.out with tx := some (byteAt s.txBuf s.txIdx) }
        txPending := s.txPending ++ [byteAt s.txBuf s.txIdx], txIdx := s.txIdx + 1 }) ∨
    (ready = true ∧ s.txIdx + 1 = s.txLen ∧ transmitStep ready s =
      { s with
        out := { s.out with tx := some (byteAt s.txBuf s.txIdx) }
        txPending := s.txPending ++ [byteAt s.txBuf s.txIdx], txIdx := s.txIdx + 1, hold := 0#32, phase := .flush }) := by
  cases ready
  · exact .inl ⟨rfl, rfl⟩
  · by_cases h : s.txIdx + 1 = s.txLen
    · exact .inr (.inr ⟨rfl, h, by simp [transmitStep, h]⟩)
    · exact .inr (.inl ⟨rfl, h, by simp [transmitStep, h]⟩)

/-- The flush step: not confirmed, confirmed and held, or released. -/
theorem flushStep_cases (done : Bool) (s : State) :
    (done = false ∧ flushStep done s = { s with hold := 0#32 }) ∨
    (done = true ∧ s.hold.toNat < s.cfg.flushHold.toNat ∧ flushStep done s = { s with hold := s.hold + 1#32 }) ∨
    (done = true ∧ s.cfg.flushHold.toNat ≤ s.hold.toNat ∧ flushStep done s = release s) := by
  cases done
  · exact .inl ⟨rfl, rfl⟩
  · by_cases h : s.hold.toNat < s.cfg.flushHold.toNat
    · exact .inr (.inl ⟨rfl, h, by simp [flushStep, h]⟩)
    · exact .inr (.inr ⟨rfl, by omega, by simp [flushStep, h]⟩)

/-- A run of one tick more, when the first has a next state. -/
theorem run_succ {n : Nat} (h : step s = .next t) : Sys2Proof.core.run (n + 1) s = Sys2Proof.core.run n t := by
  have hr : ∀ (M : Host.Core) (s t : M.State), M.step s = .next t → M.run (n + 1) s = M.run n t :=
    fun M s t h => by simp [Host.Core.run, h]
  exact hr Sys2Proof.core s t h

end Sys2Proof.Machine
end

