-- ==== Sys2Proof/Tests/Slice0.lean ====
section
/-! SUPPORT. Tests: what WellFormed refuses, decoding of frames written out from 30_encoding.md, single steps against the
vectors of 95_test_vectors.md, and a witness for the hypotheses of every obligation that has some. Expected bytes and
values are the spec's tables, not the model's answers. -/

namespace Sys2Proof.Tests

open Sys2Proof.Machine Sys2Proof.Claims

-- One theorem after another: each `decide +kernel` waits for the kernel, and too many waiting at once need a thread each.
set_option Elab.async false

/-- Whether an outcome is a next state that meets `p`. -/
def nextSat (p : State → Bool) : Host.Outcome State Fault Refusal → Bool
  | .next t => p t
  | _ => false

theorem exists_of_nextSat {p : State → Bool} {o : Host.Outcome State Fault Refusal} (h : nextSat p o = true) :
    ∃ t, o = .next t ∧ p t = true := by
  cases o with
  | next t => exact ⟨t, rfl, h⟩
  | fault _ => cases h
  | refused _ => cases h

/-- The reply an outcome has loaded; `none` when the machine is not in TRANSMIT. -/
def reply : Host.Outcome State Fault Refusal → Option (List Byte)
  | .next t => if t.phase = .transmit then some (t.txBuf.take t.txLen) else none
  | _ => none

/-- TC of 95_test_vectors.md section 2, with its tables. -/
def tc : State :=
  { State.reset with
    coil := [(0, true), (2, true), (3, true), (6, true), (8, true), (9, true), (15, true)]
    di := [(1, true), (2, true), (7, true)]
    hr := [(1, 0x1111#16), (2, 0x2222#16), (3, 0x3333#16), (4, 0x4444#16), (5, 0x5555#16), (6, 0x6666#16),
      (7, 0x7777#16), (8, 0x8888#16), (9, 0x9999#16)]
    ir := [(0, 0xABCD#16), (1, 0x0001#16), (2, 0xFFFF#16), (3, 0x8000#16)] }

/-- The tick that runs EXEC on frame `f`, from `s`. -/
def run (f : List Byte) (s : State) : Host.Outcome State Fault Refusal := step (placeFrame f s)

/-- `s` with one input scheduled. -/
def given (i : TickInput) (s : State) : State := { s with env := [i] }

/-- A machine in RECEIVING with `f` buffered and the silence counted to `n`. -/
def holding (f : List Byte) (n : Word32) (s : State) : State :=
  { s with phase := .receiving, rxBuf := f ++ s.rxBuf.drop f.length, rxLen := f.length, sil := n }

/-- A machine in TRANSMIT with reply `01 83 02 C0 F1`, `k` of its bytes taken. -/
def sending (k : Nat) (s : State) : State :=
  { s with
    phase := .transmit, rxLen := 8, txEnR := true, txLen := 5, txIdx := k
    txBuf := [0x01#8, 0x83#8, 0x02#8, 0xC0#8, 0xF1#8] ++ List.replicate 251 0#8 }

/-- A machine in FLUSH after that reply, with `hold` at `h` and a hook due. -/
def flushing (h : Word32) (s : State) : State :=
  { sending 5 s with phase := .flush, hold := h, pendHook := some ⟨0x06#8, 0#16, 1#16⟩ }

/-! ## WellFormed -/

theorem test_wf_refuses_eight_byte_frame_as_missized : (Instr.rhr 1#8 (.missized [0#8, 0#8, 0#8, 1#8])).wf = false := by decide
theorem test_wf_refuses_missized_beyond_largest_buffer : (Instr.wsc 1#8 (.missized (List.replicate 65531 0#8))).wf = false := by
  have h : (List.replicate 65531 0#8 : List Byte).length = 65531 := List.length_replicate
  simp only [Instr.wf, Rq8.wf, h]; rfl
theorem test_wf_refuses_data_beyond_largest_buffer :
    (Instr.wmc 1#8 (.fields 0#16 8#16 1#8 (List.replicate 65526 0#8))).wf = false := by
  have h : (List.replicate 65526 0#8 : List Byte).length = 65526 := List.length_replicate
  simp only [Instr.wf, Rqm.wf, h]; rfl
theorem test_wf_refuses_nine_byte_frame_as_short : (Instr.wmr 1#8 (.short [0#8, 0#8, 0#8, 1#8, 2#8])).wf = false := by decide

/-! ## Decoding (30_encoding.md R90, R94, R95, R104: frames written out byte by byte, CRC bytes from 95_test_vectors.md) -/

theorem test_decode_rc : decode [0x01#8, 0x01#8, 0x00#8, 0x02#8, 0x00#8, 0x0A#8, 0x1D#8, 0xCD#8] =
    .ok (.rc 1#8 (.fields 2#16 10#16)) := by decide +kernel
theorem test_decode_rdi : decode [0x01#8, 0x02#8, 0x00#8, 0x00#8, 0x00#8, 0x08#8, 0x79#8, 0xCC#8] =
    .ok (.rdi 1#8 (.fields 0#16 8#16)) := by decide +kernel
theorem test_decode_rhr : decode [0x01#8, 0x03#8, 0x00#8, 0x00#8, 0x00#8, 0x0A#8, 0xC5#8, 0xCD#8] =
    .ok (.rhr 1#8 (.fields 0#16 10#16)) := by decide +kernel
theorem test_decode_rir : decode [0x01#8, 0x04#8, 0xFF#8, 0x84#8, 0x00#8, 0x7D#8, 0x40#8, 0x16#8] =
    .ok (.rir 1#8 (.fields 0xFF84#16 125#16)) := by decide +kernel
theorem test_decode_wsc : decode [0x01#8, 0x05#8, 0x00#8, 0x04#8, 0xFF#8, 0x00#8, 0xCD#8, 0xFB#8] =
    .ok (.wsc 1#8 (.fields 4#16 0xFF00#16)) := by decide +kernel
theorem test_decode_wsr : decode [0x00#8, 0x06#8, 0x00#8, 0x00#8, 0x12#8, 0x34#8, 0x85#8, 0x6C#8] =
    .ok (.wsr 0#8 (.fields 0#16 0x1234#16)) := by decide +kernel
theorem test_decode_wmc : decode [0x01#8, 0x0F#8, 0x00#8, 0x04#8, 0x00#8, 0x0A#8, 0x02#8, 0xCD#8, 0x01#8, 0x71#8, 0xEC#8] =
    .ok (.wmc 1#8 (.fields 4#16 10#16 2#8 [0xCD#8, 0x01#8])) := by decide +kernel
theorem test_decode_wmr :
    decode [0x01#8, 0x10#8, 0x00#8, 0x01#8, 0x00#8, 0x02#8, 0x04#8, 0x12#8, 0x34#8, 0xAB#8, 0xCD#8, 0xC8#8, 0x70#8] =
    .ok (.wmr 1#8 (.fields 1#16 2#16 4#8 [0x12#8, 0x34#8, 0xAB#8, 0xCD#8])) := by decide +kernel
theorem test_decode_missized : decode [0x01#8, 0x03#8, 0x40#8, 0x21#8] = .ok (.rhr 1#8 (.missized [])) := by decide +kernel
theorem test_decode_fc_has_eight_bits : decode [0x01#8, 0x81#8, 0x00#8, 0x40#8, 0x50#8] =
    .error (.unrecognizedFunction 1#8 0x81#8) := by decide +kernel
theorem test_tableWord_wsc : decodeTableWord 40 0x00FF040005 = some (.wsc 1#8 (.fields 4#16 0xFF00#16)) := by decide +kernel
theorem test_tableWord_wmr_zero_operands : decodeTableWord 8 0x10 = some (.wmr 1#8 (.fields 0#16 0#16 0#8 [])) := by
  decide +kernel

/-! ## CRC and timing (95_test_vectors.md sections 7, 8) -/

theorem test_crc_empty : crc16 [] = 0xFFFF#16 := by decide +kernel
theorem test_crc_frame : crc16 [0x01#8, 0x03#8, 0x00#8, 0x00#8, 0x00#8, 0x0A#8] = 0xCDC5#16 := by decide +kernel
theorem test_crc_check_value :
    crc16 [0x31#8, 0x32#8, 0x33#8, 0x34#8, 0x35#8, 0x36#8, 0x37#8, 0x38#8, 0x39#8] = 0x4B37#16 := by decide +kernel
theorem test_crc_serial_check_value :
    crcSerial [0x31#8, 0x32#8, 0x33#8, 0x34#8, 0x35#8, 0x36#8, 0x37#8, 0x38#8, 0x39#8] = 0x4B37#16 := by decide +kernel

/-- A link of 8 data bits and `p` parity bits with 1 stop bit, a tick of `clk` Hz and the default floors. -/
def link (clk baud : Word32) (p : Nat) : Cfg :=
  { Cfg.tc with clkHz := clk, baud := baud, parityBits := p, t15Floor := defaultT15Floor clk.toNat, t35Floor := defaultT35Floor clk.toNat }

theorem test_timing_tc : charTimeout Cfg.tc = 15 ∧ frameTimeout Cfg.tc = 35 := by decide +kernel
theorem test_timing_300 : charTimeout (link 1000000#32 300#32 1) = 55000 ∧ frameTimeout (link 1000000#32 300#32 1) = 128334 := by
  decide +kernel
theorem test_timing_19200 : charTimeout (link 1000000#32 19200#32 0) = 782 ∧ frameTimeout (link 1000000#32 19200#32 0) = 1823 := by
  decide +kernel
theorem test_timing_floor : charTimeout (link 1000000#32 115200#32 1) = 750 ∧ frameTimeout (link 1000000#32 115200#32 1) = 1750 := by
  decide +kernel

/-! ## The eight functions (95_test_vectors.md sections 1, 5) -/

theorem test_rc_packs_with_padding :
    reply (run [0x01#8, 0x01#8, 0x00#8, 0x02#8, 0x00#8, 0x0A#8, 0x1D#8, 0xCD#8] tc) =
      some [0x01#8, 0x01#8, 0x02#8, 0xD3#8, 0x00#8, 0xE4#8, 0xCC#8] := by decide +kernel
theorem test_rc_too_many :
    reply (run [0x01#8, 0x01#8, 0x00#8, 0x00#8, 0x07#8, 0xD1#8, 0xFE#8, 0x66#8] { tc with cfg := { Cfg.tc with nCoil := 4000 } }) =
      some [0x01#8, 0x81#8, 0x03#8, 0x00#8, 0x51#8] := by decide +kernel
theorem test_rdi_packs :
    reply (run [0x01#8, 0x02#8, 0x00#8, 0x00#8, 0x00#8, 0x08#8, 0x79#8, 0xCC#8] tc) =
      some [0x01#8, 0x02#8, 0x01#8, 0x86#8, 0x20#8, 0x2A#8] := by decide +kernel
theorem test_rdi_bounds_before_quantity :
    reply (run [0x01#8, 0x02#8, 0x00#8, 0x00#8, 0x07#8, 0xD1#8, 0xBA#8, 0x66#8] { tc with cfg := { Cfg.tc with nDi := 2000 } }) =
      some [0x01#8, 0x82#8, 0x02#8, 0xC1#8, 0x61#8] := by decide +kernel
theorem test_rhr_example :
    reply (run [0x01#8, 0x03#8, 0x00#8, 0x00#8, 0x00#8, 0x0A#8, 0xC5#8, 0xCD#8] tc) =
      some [0x01#8, 0x03#8, 0x14#8, 0x00#8, 0x00#8, 0x11#8, 0x11#8, 0x22#8, 0x22#8, 0x33#8, 0x33#8, 0x44#8, 0x44#8, 0x55#8,
        0x55#8, 0x66#8, 0x66#8, 0x77#8, 0x77#8, 0x88#8, 0x88#8, 0x99#8, 0x99#8, 0xF8#8, 0x90#8] := by decide +kernel
theorem test_rhr_no_wrap :
    reply (run [0x01#8, 0x03#8, 0xFF#8, 0xFF#8, 0x00#8, 0x02#8, 0xC4#8, 0x2F#8] tc) =
      some [0x01#8, 0x83#8, 0x02#8, 0xC0#8, 0xF1#8] := by decide +kernel
theorem test_rir_high_byte_first :
    reply (run [0x01#8, 0x04#8, 0x00#8, 0x01#8, 0x00#8, 0x03#8, 0xE1#8, 0xCB#8] tc) =
      some [0x01#8, 0x04#8, 0x06#8, 0x00#8, 0x01#8, 0xFF#8, 0xFF#8, 0x80#8, 0x00#8, 0x3C#8, 0xB7#8] := by decide +kernel
theorem test_rir_unbound_before_length :
    reply (run [0x01#8, 0x04#8, 0x01#8, 0xE3#8] { tc with cfg := { Cfg.tc with nIr := 0 } }) =
      some [0x01#8, 0x84#8, 0x02#8, 0xC2#8, 0xC1#8] := by decide +kernel
theorem test_wsc_sets_and_echoes :
    nextSat (fun t => t.bitAt .coil 4 && t.pendHook == some ⟨0x05#8, 4#16, 1#16⟩
        && t.txBuf.take t.txLen == [0x01#8, 0x05#8, 0x00#8, 0x04#8, 0xFF#8, 0x00#8, 0xCD#8, 0xFB#8])
      (run [0x01#8, 0x05#8, 0x00#8, 0x04#8, 0xFF#8, 0x00#8, 0xCD#8, 0xFB#8] tc) = true := by decide +kernel
theorem test_wsc_bounds_before_value :
    reply (run [0x01#8, 0x05#8, 0x00#8, 0x10#8, 0x12#8, 0x34#8, 0xC1#8, 0x78#8] tc) =
      some [0x01#8, 0x85#8, 0x02#8, 0xC3#8, 0x51#8] := by decide +kernel
theorem test_wsr_writes_last_register :
    nextSat (fun t => t.wordAt .hr 9 == 0xBEEF#16 && t.wordAt .hr 8 == 0x8888#16 && t.pendHook == some ⟨0x06#8, 9#16, 1#16⟩)
      (run [0x01#8, 0x06#8, 0x00#8, 0x09#8, 0xBE#8, 0xEF#8, 0x69#8, 0xE4#8] tc) = true := by decide +kernel
theorem test_wsr_out_of_bounds :
    reply (run [0x01#8, 0x06#8, 0x00#8, 0x0A#8, 0xBE#8, 0xEF#8, 0x99#8, 0xE4#8] tc) =
      some [0x01#8, 0x86#8, 0x02#8, 0xC3#8, 0xA1#8] := by decide +kernel
theorem test_wmc_unpacks :
    nextSat (fun t => (t.bitsRead .coil 0 16 ==
        [true, false, true, true, true, false, true, true, false, false, true, true, true, false, false, true])
        && t.txBuf.take t.txLen == [0x01#8, 0x0F#8, 0x00#8, 0x04#8, 0x00#8, 0x0A#8, 0x94#8, 0x0D#8])
      (run [0x01#8, 0x0F#8, 0x00#8, 0x04#8, 0x00#8, 0x0A#8, 0x02#8, 0xCD#8, 0xFD#8, 0x71#8, 0xAD#8] tc) = true := by decide +kernel
theorem test_wmc_wrong_byte_count :
    reply (run [0x01#8, 0x0F#8, 0x00#8, 0x04#8, 0x00#8, 0x0A#8, 0x03#8, 0xCD#8, 0x01#8, 0x00#8, 0x2D#8, 0xD8#8] tc) =
      some [0x01#8, 0x8F#8, 0x03#8, 0x04#8, 0x31#8] := by decide +kernel
theorem test_wmr_broadcast_writes_silently :
    nextSat (fun t => t.wordsRead .hr 1 3 == [0x1234#16, 0xABCD#16, 0x3333#16] && t.phase == .idle && t.pendHook == none
        && t.txLen == 0 && t.events == [.bcastOk 0x10#8])
      (run [0x00#8, 0x10#8, 0x00#8, 0x01#8, 0x00#8, 0x02#8, 0x04#8, 0x12#8, 0x34#8, 0xAB#8, 0xCD#8, 0xCC#8, 0x8C#8] tc) = true := by
  decide +kernel
theorem test_wmr_no_partial_write :
    nextSat (fun t => t.hr == tc.hr && t.txBuf.take t.txLen == [0x01#8, 0x90#8, 0x02#8, 0xCD#8, 0xC1#8])
      (run [0x01#8, 0x10#8, 0x00#8, 0x09#8, 0x00#8, 0x02#8, 0x04#8, 0x12#8, 0x34#8, 0xAB#8, 0xCD#8, 0xC9#8, 0xD6#8] tc) = true := by
  decide +kernel

/-! ## Validator, dispatcher, receiver, transmitter, reset (95_test_vectors.md sections 3, 4, 5.6, 6) -/

theorem test_unrecognized_function :
    reply (run [0x01#8, 0x81#8, 0x00#8, 0x40#8, 0x50#8] tc) = some [0x01#8, 0x81#8, 0x01#8, 0x81#8, 0x90#8] := by decide +kernel
theorem test_other_unit_is_ignored :
    nextSat (fun t => t.events == [.ignoreUnit] && t.phase == .idle && t.sil == 15#32 && t.rxLen == 0)
      (run [0x02#8, 0x03#8, 0x00#8, 0x00#8, 0x00#8, 0x0A#8, 0xC5#8, 0xFE#8] tc) = true := by decide +kernel
theorem test_wildcard_echoes_the_unit_byte :
    reply (run [0xFF#8, 0x03#8, 0x00#8, 0x01#8, 0x00#8, 0x01#8, 0xC0#8, 0x14#8] { tc with cfg := { Cfg.tc with unitId := 0xFF#8 } }) =
      some [0xFF#8, 0x03#8, 0x02#8, 0x11#8, 0x11#8, 0x5D#8, 0xCC#8] := by decide +kernel
theorem test_first_byte_one_tick_early :
    nextSat (fun t => t.phase == .idle && t.events == [.earlyByte 0x01#8] && t.sil == 0#32)
      (step (given { arrivals := [0x01#8] } { tc with sil := 34#32 })) = true := by decide +kernel
theorem test_overflow_at_capacity :
    nextSat (fun t => t.phase == .idle && t.events == [.overflow] && t.rxLen == 0 && t.sil == 0#32)
      (step (given { arrivals := [0x1B#8] }
        { holding (List.replicate 11 0x10#8) 9#32 tc with build := { rxBufCap := 12 } })) = true := by decide +kernel
theorem test_abandon_keeps_the_silence :
    nextSat (fun t => t.phase == .idle && t.events == [.abandon] && t.rxLen == 0 && t.sil == 35#32)
      (step (given {} (holding [0x01#8, 0x03#8, 0x00#8] 34#32 tc))) = true := by decide +kernel
theorem test_silence_saturates :
    nextSat (fun t => t.sil == 0xFFFFFFFF#32) (step (given {} { tc with sil := 0xFFFFFFFF#32 })) = true := by decide +kernel
theorem test_stalled_transport_is_offered_the_byte :
    nextSat (fun t => t.out.tx == some 0x01#8 && t.txIdx == 0 && t.txEn && t.phase == .transmit)
      (step (given {} (sending 0 tc))) = true := by decide +kernel
theorem test_hold_counts_to_flushHold :
    nextSat (fun t => t.hold == 2#32 && t.phase == .flush && t.txEn && t.out.hook == none)
      (step (given { txDone := true } (flushing 1#32 { tc with cfg := { Cfg.tc with flushHold := 2#32 } }))) = true := by decide +kernel
theorem test_release_strobes_the_hook :
    nextSat (fun t => t.out.hook == some ⟨0x06#8, 0#16, 1#16⟩ && !t.txEn && t.phase == .idle && t.sil == 0#32)
      (step (given { txDone := true } (flushing 0#32 tc))) = true := by decide +kernel
theorem test_reset_keeps_tables :
    nextSat (fun t => t.hr == tc.hr && t.phase == .idle && !t.txEn && t.out.tx == none && t.cfg.unitId == 7#8)
      (step (given { rst := some { Cfg.tc with unitId := 7#8 } } (sending 3 tc))) = true := by decide +kernel
theorem test_withFetchWord_runs : nextSat (fun t => t.events == [.exc 0x10#8 .illegalDataValue])
    (step (State.reset.withFetchWord 8 0x10)) = true := by decide +kernel

/-! ## Witnesses: states and operands that meet every hypothesis of an obligation together, at the ends of its ranges -/

/-- What the other agents leave when the application writes nothing. -/
def met (s : State) : State := newTick (transmitTransport s.input.txLeft (receiveTransport s.input.arrivals s))

theorem begins (s : State) (h : s.input.app = []) : beginTick s.input s = met s := beginTick_noApp h

theorem ready (s : State) (h : s.input.app = []) (hr : s.input.rst = none) (hl : (met s).legal = true) : Ready s (met s) :=
  ⟨begins s h, hr, hl⟩

/-- The frame of 95_test_vectors.md section 1, complete but for this tick. -/
def pending : State := placeFrame [0x01#8, 0x03#8, 0x00#8, 0x00#8, 0x00#8, 0x0A#8, 0xC5#8, 0xCD#8] tc

/-- TC with other counts of elements in every table. -/
def counts (n : Nat) : State := { tc with cfg := { Cfg.tc with nCoil := n, nDi := n, nHr := n, nIr := n } }

theorem witness_DecodeOfEncode :
    (Instr.wmr 255#8 (.fields 0xFFFF#16 0xFFFF#16 255#8 [1#8])).wf = true ∧ (Instr.rc 0#8 (.missized [])).wf = true ∧
    (Instr.wmc 1#8 (.short [1#8, 2#8, 3#8, 4#8])).wf = true ∧ (Instr.wsc 1#8 (.missized [1#8, 2#8, 3#8, 4#8, 5#8])).wf = true := by
  decide +kernel

theorem witness_EncodeOfDecode :
    [0x01#8, 0x03#8, 0x40#8, 0x21#8].length ≤ 65534 ∧
    decode [0x01#8, 0x03#8, 0x40#8, 0x21#8] = .ok (.rhr 1#8 (.missized [])) := by decide +kernel

theorem witness_SingleBitFlipIsDropped :
    4 ≤ [0x01#8, 0x03#8, 0x40#8, 0x21#8].length ∧ crcOk [0x01#8, 0x03#8, 0x40#8, 0x21#8] = true ∧
    3 < [0x01#8, 0x03#8, 0x40#8, 0x21#8].length ∧ 7 < 8 := by decide +kernel

theorem witness_TimeoutsAreLeastNotShorter : 1 ≤ { Cfg.tc with baud := 1#32 }.baud.toNat := by decide

theorem witness_TimeoutRegistersOrdered : tc.TimingOk ∧ tc.legal = true := by decide +kernel

theorem witness_OtherAgentsActFirst :
    ∃ (s : State) (i : TickInput), s.memoryWf = true ∧ s.input = i ∧ i.app.length = 4 :=
  ⟨given { app := [.bit .coil 15 true, .bit .di 0xFFFF false, .word .hr 9 1#16, .word .ir 0xFFFF 2#16] } tc, _,
    by decide +kernel, rfl, rfl⟩

/-- Several writes to one element, another between them, and no write. -/
def refills : List AppWrite := [.word .hr 0xFFFF 5#16, .bit .di 7 false, .word .hr 0xFFFF 6#16, .word .ir 3 0#16]

theorem witness_ApplicationWriteIsSeen :
    tc.memoryWf = true ∧ lastWord .hr 0xFFFF refills = some 6#16 ∧ lastBit .di 7 refills = some false ∧
    lastBit .di 1 refills = none ∧ lastBit .coil 7 refills = none ∧ lastWord .ir 0xFFFF refills = none ∧
    ({} : TickInput).app = [] := by decide +kernel

/-- A single reset tick that samples larger counts, in which new elements are filled (70_reset_and_hazards.md R305). -/
theorem witness_TablesAreFilledInAnyOrderWithReset :
    (∃ (s : State) (c : Cfg), s.memoryWf = true ∧ s.input.rst = some c ∧ s.input.app = refills ∧ s.cfg.nHr < c.nHr) ∧
    ∃ (s : State) (c : Cfg), s.input.rst = some c ∧ s.input.app = [] :=
  ⟨⟨given { rst := some (counts 65536).cfg, app := refills } tc, _, by decide +kernel, rfl, rfl, by decide +kernel⟩,
    ⟨given { rst := some Cfg.tc } tc, _, rfl, rfl⟩⟩

theorem test_last_application_write_wins :
    nextSat (fun t => t.wordAt .hr 0xFFFF == 6#16 && !t.bitAt .di 7 && t.bitAt .di 1 && t.wordAt .ir 3 == 0#16 && t.wordAt .ir 2 == 0xFFFF#16)
      (step (given { rst := some (counts 65536).cfg, app := refills } tc)) = true := by decide +kernel

theorem witness_ResetTickResets :
    ∃ (s m : State) (c : Cfg), beginTick s.input s = m ∧ s.input.rst = some c :=
  ⟨given { rst := some Cfg.tc } (sending 3 tc), _, Cfg.tc, begins _ rfl, rfl⟩

theorem witness_ConfigurationIsFixedWhileRunning : ∃ s t : State, step s = .next t ∧ s.input.rst = none := by
  obtain ⟨t, h, -⟩ := exists_of_nextSat (p := fun _ => true) (o := step pending) (by decide +kernel)
  exact ⟨_, t, h, rfl⟩

theorem witness_IllegalConfigurationIsRefused :
    ∃ s m : State, beginTick s.input s = m ∧ s.input.rst = none ∧ m.legal = false :=
  ⟨given {} (counts 65537), _, begins _ rfl, rfl, by decide +kernel⟩

theorem witness_EveryTickHasANextState :
    (∃ s : State, s.legal = true ∧ s.input.app = [.word .ir 0xFFFF 1#16]) ∧ ∃ s : State, s.legal = false ∧ s.input.rst ≠ none :=
  ⟨⟨given { app := [.word .ir 0xFFFF 1#16] } tc, by decide +kernel, rfl⟩,
    ⟨given { rst := some Cfg.tc } (counts 65537), by decide +kernel, by simp [given, State.input]⟩⟩

theorem witness_FirstByteIsAccepted :
    ∃ (s m : State) (b : Byte) (q : List Byte), Ready s m ∧ m.phase = .idle ∧ m.rxQueue = b :: q ∧ m.t35.toNat ≤ m.sil.toNat :=
  ⟨given { arrivals := [1#8] } { tc with sil := 35#32 }, _, 1#8, [], ready _ rfl rfl (by decide +kernel), rfl, rfl,
    by decide +kernel⟩

theorem witness_IdleSilenceIsCounted : ∃ s m : State, Ready s m ∧ m.phase = .idle ∧ m.rxQueue = [] :=
  ⟨given {} { tc with sil := 0xFFFFFFFF#32 }, _, ready _ rfl rfl (by decide +kernel), rfl, rfl⟩

theorem witness_EarlyByteIsDropped :
    ∃ (s m : State) (b : Byte) (q : List Byte), Ready s m ∧ m.phase = .idle ∧ m.rxQueue = b :: q ∧ m.sil.toNat < m.t35.toNat :=
  ⟨given { arrivals := [1#8] } { tc with sil := 34#32 }, _, 1#8, [], ready _ rfl rfl (by decide +kernel), rfl, rfl,
    by decide +kernel⟩

theorem witness_NextByteIsAppendedOrOverflows :
    (∃ (s m : State) (b : Byte) (q : List Byte), Ready s m ∧ m.phase = .receiving ∧ m.rxQueue = b :: q ∧
      m.rxLen + 1 = m.build.rxBufCap) ∧
    ∃ (s m : State) (b : Byte) (q : List Byte), Ready s m ∧ m.phase = .receiving ∧ m.rxQueue = b :: q ∧
      m.rxLen + 2 = m.build.rxBufCap :=
  ⟨⟨given { arrivals := [1#8] } { holding (List.replicate 11 1#8) 9#32 tc with build := { rxBufCap := 12 } }, _, 1#8, [],
      ready _ rfl rfl (by decide +kernel), rfl, rfl, by decide +kernel⟩,
    ⟨given { arrivals := [1#8] } { holding (List.replicate 10 1#8) 9#32 tc with build := { rxBufCap := 12 } }, _, 1#8, [],
      ready _ rfl rfl (by decide +kernel), rfl, rfl, by decide +kernel⟩⟩

theorem witness_ShortBufferWaitsOrIsAbandoned :
    (∃ s m : State, Ready s m ∧ m.phase = .receiving ∧ m.rxQueue = [] ∧ m.rxLen < 4 ∧ m.sil.toNat + 1 = m.t35.toNat) ∧
    ∃ s m : State, Ready s m ∧ m.phase = .receiving ∧ m.rxQueue = [] ∧ m.rxLen < 4 ∧ m.sil.toNat + 2 = m.t35.toNat :=
  ⟨⟨given {} (holding [1#8, 3#8, 0#8] 34#32 tc), _, ready _ rfl rfl (by decide +kernel), rfl, rfl, by decide +kernel, by decide +kernel⟩,
    ⟨given {} (holding [1#8] 33#32 tc), _, ready _ rfl rfl (by decide +kernel), rfl, rfl, by decide +kernel, by decide +kernel⟩⟩

theorem witness_UnfinishedFrameWaits :
    ∃ s m : State, Ready s m ∧ m.phase = .receiving ∧ m.rxQueue = [] ∧ 4 ≤ m.rxLen ∧
      min (m.sil.toNat + 1) (2 ^ 32 - 1) < m.t15.toNat :=
  ⟨given {} (holding [1#8, 3#8, 0x40#8, 0x21#8] 13#32 tc), _, ready _ rfl rfl (by decide +kernel), rfl, rfl, by decide +kernel,
    by decide +kernel⟩

theorem completes (s : State) (h : s.env = [{}]) (hp : s.phase = .receiving) (hq : s.rxQueue = []) (hl : 4 ≤ s.rxLen)
    (ht : s.t15.toNat ≤ min (s.sil.toNat + 1) (2 ^ 32 - 1)) : Completes (met s) := by
  simp [Completes, met, newTick, transmitTransport, receiveTransport, State.input, h, hp, hq, hl] at ht ⊢
  omega

/-- `f` complete but for this tick, under unit id `u`. -/
def due (u : Byte) (f : List Byte) : State := placeFrame f { tc with cfg := { Cfg.tc with unitId := u } }

theorem witness_StepRunsDecodedRequest :
    (∃ (s m : State) (i : Instr), Ready s m ∧ Completes m ∧ decode (m.rxBuf.take m.rxLen) = .ok i ∧ i.wf = true ∧ i.unit = 0#8) ∧
    (∃ (s m : State) (i : Instr), Ready s m ∧ Completes m ∧ decode (m.rxBuf.take m.rxLen) = .ok i ∧ i.wf = true ∧
      m.cfg.unitId = 0xFF#8) ∧
    ∃ (s m : State) (i : Instr), Ready s m ∧ Completes m ∧ decode (m.rxBuf.take m.rxLen) = .ok i ∧ i.wf = true ∧
      i.unit = m.cfg.unitId :=
  ⟨⟨due 1#8 [0x00#8, 0x06#8, 0x00#8, 0x00#8, 0x12#8, 0x34#8, 0x85#8, 0x6C#8], _, .wsr 0#8 (.fields 0#16 0x1234#16),
      ready _ rfl rfl (by decide +kernel), completes _ rfl rfl rfl (by decide +kernel) (by decide +kernel),
      by decide +kernel, rfl, rfl⟩,
    ⟨due 0xFF#8 [0x37#8, 0x03#8, 0x00#8, 0x00#8, 0x00#8, 0x01#8, 0x81#8, 0x9C#8], _, .rhr 0x37#8 (.fields 0#16 1#16),
      ready _ rfl rfl (by decide +kernel), completes _ rfl rfl rfl (by decide +kernel) (by decide +kernel),
      by decide +kernel, rfl, rfl⟩,
    ⟨due 1#8 [0x01#8, 0x03#8, 0x40#8, 0x21#8], _, .rhr 1#8 (.missized []),
      ready _ rfl rfl (by decide +kernel), completes _ rfl rfl rfl (by decide +kernel) (by decide +kernel),
      by decide +kernel, rfl, rfl⟩⟩

theorem witness_ByteConsumedExactlyWhenReceiving :
    (∃ s t : State, step s = .next t ∧ t.out.rxPop = true) ∧ ∃ s t : State, step s = .next t ∧ (!t.out.rxPop && t.rxQueue.length == 1) = true :=
  ⟨⟨_, exists_of_nextSat (o := step (given { arrivals := [1#8] } tc)) (by decide +kernel)⟩,
    ⟨_, exists_of_nextSat (p := fun t => !t.out.rxPop && t.rxQueue.length == 1)
      (o := step (given { arrivals := [1#8] } (flushing 0#32 tc))) (by decide +kernel)⟩⟩

theorem witness_FrameHeldUntilT15 :
    ∃ (is rest : List TickInput) (s : State), s.env = is ++ rest ∧ (∀ i ∈ is, Quiet i) ∧ s.legal = true ∧
      s.phase = .receiving ∧ s.rxQueue = [] ∧ 4 ≤ s.rxLen ∧ s.sil = 0#32 ∧ is.length < s.t15.toNat ∧
      is.length + 1 = s.t15.toNat ∧ ∃ j after, rest = j :: after ∧ Quiet j :=
  ⟨List.replicate 14 { app := [.word .hr 9 1#16] }, [{}],
    { holding [1#8, 3#8, 0x40#8, 0x21#8] 0#32 tc with env := List.replicate 14 { app := [.word .hr 9 1#16] } ++ [{}] }, rfl,
    fun i hi => by rw [List.eq_of_mem_replicate hi]; exact ⟨rfl, rfl⟩, by decide +kernel, rfl, rfl,
    by decide +kernel, rfl, by decide +kernel, by decide +kernel, {}, [], rfl, rfl, rfl⟩

theorem witness_ValidatorVerdict :
    [1#8, 3#8, 0#8].length < 4 ∧ crcOk [0x01#8, 0x03#8, 0x40#8, 0x20#8] = false ∧
    (crcOk [0x01#8, 0x03#8, 0x40#8, 0x21#8] = true ∧ byteAt [0x01#8, 0x03#8, 0x40#8, 0x21#8] 0 ≠ 0#8) ∧
    crcOk [0x00#8, 0x03#8, 0x00#8, 0x00#8, 0x00#8, 0x01#8, 0x85#8, 0xDB#8] = true := by decide +kernel

theorem witness_DroppedFrameLeavesNoTrace :
    ∃ (s m : State) (e : Event), Ready s m ∧ Completes m ∧ validate m.cfg.unitId (m.rxBuf.take m.rxLen) = .drop e :=
  ⟨due 2#8 [0x01#8, 0x03#8, 0x40#8, 0x21#8], _, .ignoreUnit, ready _ rfl rfl (by decide +kernel),
    completes _ rfl rfl rfl (by decide +kernel) (by decide +kernel), by decide +kernel⟩

theorem witness_UnrecognizedFunctionIsAnswered :
    ∃ (s m : State) (b : Bool), Ready s m ∧ Completes m ∧ validate m.cfg.unitId (m.rxBuf.take m.rxLen) = .accept b ∧
      byteAt (m.rxBuf.take m.rxLen) 1 ∉ [0x01#8, 0x02#8, 0x03#8, 0x04#8, 0x05#8, 0x06#8, 0x0F#8, 0x10#8] :=
  ⟨due 1#8 [0x01#8, 0x11#8, 0xC0#8, 0x2C#8], _, false, ready _ rfl rfl (by decide +kernel),
    completes _ rfl rfl rfl (by decide +kernel) (by decide +kernel), by decide +kernel, by decide +kernel⟩

theorem witness_NoReplyToBroadcastOrDrop :
    (∃ s m : State, Ready s m ∧ Completes m ∧ ∃ e, validate m.cfg.unitId (m.rxBuf.take m.rxLen) = .drop e) ∧
    ∃ s m : State, Ready s m ∧ Completes m ∧ byteAt (m.rxBuf.take m.rxLen) 0 = 0#8 :=
  ⟨⟨due 1#8 [0x01#8, 0x03#8, 0x40#8, 0x20#8], _, ready _ rfl rfl (by decide +kernel),
      completes _ rfl rfl rfl (by decide +kernel) (by decide +kernel), .dropCrc, by decide +kernel⟩,
    ⟨due 1#8 [0x00#8, 0x03#8, 0x00#8, 0x00#8, 0x00#8, 0x0B#8, 0x05#8, 0xDC#8], _, ready _ rfl rfl (by decide +kernel),
      completes _ rfl rfl rfl (by decide +kernel) (by decide +kernel), by decide +kernel⟩⟩

theorem witness_ReadCoilsReplies :
    (1 ≤ (2000#16 : Word).toNat ∧ (2000#16 : Word).toNat ≤ 2000 ∧ (63536#16 : Word).toNat + (2000#16 : Word).toNat ≤ (counts 65536).cfg.nCoil) ∧
    1 ≤ (1#16 : Word).toNat ∧ (15#16 : Word).toNat + (1#16 : Word).toNat ≤ tc.cfg.nCoil := by decide +kernel

theorem witness_ReadDiscreteInputsReplies :
    (1 ≤ (2000#16 : Word).toNat ∧ (2000#16 : Word).toNat ≤ 2000 ∧ (63536#16 : Word).toNat + (2000#16 : Word).toNat ≤ (counts 65536).cfg.nDi) ∧
    1 ≤ (1#16 : Word).toNat ∧ (7#16 : Word).toNat + (1#16 : Word).toNat ≤ tc.cfg.nDi := by decide +kernel

theorem witness_ReadHoldingRegistersReplies :
    (counts 0).cfg.nHr = 0 ∧ tc.cfg.nHr ≠ 0 ∧ tc.cfg.nHr < (10#16 : Word).toNat + (1#16 : Word).toNat ∧
    ((10#16 : Word).toNat + (0#16 : Word).toNat ≤ tc.cfg.nHr ∧ (0#16 : Word).toNat < 1) ∧
    ((0#16 : Word).toNat + (126#16 : Word).toNat ≤ (counts 200).cfg.nHr ∧ 125 < (126#16 : Word).toNat) ∧
    ((75#16 : Word).toNat + (125#16 : Word).toNat ≤ (counts 200).cfg.nHr ∧ 1 ≤ (125#16 : Word).toNat ∧ (125#16 : Word).toNat ≤ 125) := by
  decide +kernel

theorem witness_ReadInputRegistersReplies :
    (1 ≤ (125#16 : Word).toNat ∧ (125#16 : Word).toNat ≤ 125 ∧ (65411#16 : Word).toNat + (125#16 : Word).toNat ≤ (counts 65536).cfg.nIr) ∧
    1 ≤ (1#16 : Word).toNat ∧ (3#16 : Word).toNat + (1#16 : Word).toNat ≤ tc.cfg.nIr := by decide +kernel

theorem witness_WriteSingleCoilWrites :
    tc.memoryWf = true ∧ ((0xFF00#16 : Word) = 0x0000#16 ∨ (0xFF00#16 : Word) = 0xFF00#16) ∧ (15#16 : Word).toNat < tc.cfg.nCoil := by
  decide +kernel

theorem witness_WriteSingleRegisterWrites : tc.memoryWf = true ∧ (9#16 : Word).toNat < tc.cfg.nHr := by decide +kernel

theorem witness_WriteMultipleCoilsWrites :
    (counts 4000).memoryWf = true ∧ 1 ≤ (1968#16 : Word).toNat ∧ (1968#16 : Word).toNat ≤ 1968 ∧
    (2032#16 : Word).toNat + (1968#16 : Word).toNat ≤ (counts 4000).cfg.nCoil ∧
    (246#8 : Byte).toNat = ((1968#16 : Word).toNat + 7) / 8 ∧ (List.replicate 246 0#8 : List Byte).length = (246#8 : Byte).toNat := by
  decide +kernel

theorem witness_WriteMultipleRegistersWrites :
    (counts 200).memoryWf = true ∧ 1 ≤ (123#16 : Word).toNat ∧ (123#16 : Word).toNat ≤ 123 ∧
    (77#16 : Word).toNat + (123#16 : Word).toNat ≤ (counts 200).cfg.nHr ∧
    (246#8 : Byte).toNat = 2 * (123#16 : Word).toNat ∧ (List.replicate 246 0#8 : List Byte).length = (246#8 : Byte).toNat := by
  decide +kernel

theorem witness_UnboundTableRejectsEveryRequest :
    (counts 0).cfg.nCoil = 0 ∧ (counts 0).cfg.nDi = 0 ∧ (counts 0).cfg.nHr = 0 ∧ (counts 0).cfg.nIr = 0 := by decide

theorem witness_MalformedLengthIsIllegalValue :
    tc.cfg.nCoil ≠ 0 ∧ tc.cfg.nDi ≠ 0 ∧ tc.cfg.nHr ≠ 0 ∧ tc.cfg.nIr ≠ 0 := by decide

theorem witness_OutOfBoundsIsIllegalAddress :
    (counts 65536).cfg.nIr ≠ 0 ∧ (counts 65536).cfg.nIr < (65535#16 : Word).toNat + (2#16 : Word).toNat ∧
    tc.cfg.nCoil < (16#16 : Word).toNat + 1 ∧ ((0#16 : Word) = 0#16 ∧ (10#16 : Word).toNat ≤ tc.cfg.nHr) ∧
    tc.cfg.nHr < (11#16 : Word).toNat + (0#16 : Word).toNat := by decide +kernel

theorem witness_QuantityLimitsAreChecked :
    (0#16 : Word).toNat + (2001#16 : Word).toNat ≤ (counts 4000).cfg.nCoil ∧ 2000 < (2001#16 : Word).toNat ∧
    125 < (126#16 : Word).toNat ∧ 1968 < (1969#16 : Word).toNat ∧ 123 < (124#16 : Word).toNat ∧ (0#16 : Word).toNat < 1 ∧
    (counts 4000).cfg.nCoil ≠ 0 ∧ (counts 4000).cfg.hasHook = true ∧ (3999#16 : Word).toNat + 1 ≤ (counts 4000).cfg.nCoil := by
  decide +kernel

theorem witness_BadValueOrByteCountIsIllegalValue :
    (15#16 : Word).toNat < tc.cfg.nCoil ∧ (0x00FF#16 : Word) ≠ 0x0000#16 ∧ (0x00FF#16 : Word) ≠ 0xFF00#16 ∧
    ((4#16 : Word).toNat + (10#16 : Word).toNat ≤ tc.cfg.nCoil ∧ (3#8 : Byte).toNat ≠ ((10#16 : Word).toNat + 7) / 8) ∧
    ((1#16 : Word).toNat + (2#16 : Word).toNat ≤ tc.cfg.nHr ∧ (4#8 : Byte).toNat = 2 * (2#16 : Word).toNat ∧
      [0x12#8, 0x34#8, 0xAB#8].length ≠ (4#8 : Byte).toNat) := by decide +kernel

theorem witness_ReadsChangeNothingElse :
    ∃ (s t : State) (u : Byte) (r : Rq8) (i : Instr), i ∈ [Instr.rc u r, .rdi u r, .rhr u r, .rir u r] ∧ exec i s = .next t :=
  ⟨tc, _, 1#8, .fields 0#16 4#16, _, .tail _ (.tail _ (.tail _ (.head _))), rfl⟩

theorem witness_SingleWritesChangeOneElement :
    ∃ (s t t' : State) (u : Byte) (r : Rq8), s.memoryWf = true ∧ exec (.wsc u r) s = .next t ∧ exec (.wsr u r) s = .next t' := by
  obtain ⟨t, h, -⟩ := exists_of_nextSat (p := fun t => t.events == [.reply 0x05#8])
    (o := exec (.wsc 1#8 (.fields 9#16 0xFF00#16)) tc) (by decide +kernel)
  obtain ⟨t', h', -⟩ := exists_of_nextSat (p := fun t => t.events == [.reply 0x06#8])
    (o := exec (.wsr 1#8 (.fields 9#16 0xFF00#16)) tc) (by decide +kernel)
  exact ⟨tc, t, t', _, _, by decide +kernel, h, h'⟩

theorem witness_MultipleWritesChangeTheirRange :
    ∃ (s t t' : State) (u : Byte) (r q : Rqm), s.memoryWf = true ∧ exec (.wmc u r) s = .next t ∧ exec (.wmr u q) s = .next t' := by
  obtain ⟨t, h, -⟩ := exists_of_nextSat (p := fun t => t.events == [.reply 0x0F#8])
    (o := exec (.wmc 1#8 (.fields 4#16 10#16 2#8 [0xCD#8, 0x01#8])) tc) (by decide +kernel)
  obtain ⟨t', h', -⟩ := exists_of_nextSat (p := fun t => t.events == [.reply 0x10#8])
    (o := exec (.wmr 1#8 (.fields 8#16 2#16 4#8 [1#8, 2#8, 3#8, 4#8])) tc) (by decide +kernel)
  exact ⟨tc, t, t', _, _, _, by decide +kernel, h, h'⟩

theorem witness_RequestsAreIdempotentOnTables :
    ∃ (i : Instr) (s t t' : State), s.memoryWf = true ∧ exec i s = .next t ∧ exec i t = .next t' := by
  obtain ⟨t, h, -⟩ := exists_of_nextSat (p := fun t => t.events == [.reply 0x06#8])
    (o := exec (.wsr 1#8 (.fields 9#16 0#16)) tc) (by decide +kernel)
  rcases exec_cases (.wsr 1#8 (.fields 9#16 0#16)) t with ⟨e, h'⟩ | ⟨w, p, k, q, -, -, h'⟩
  · exact ⟨_, tc, t, _, by decide +kernel, h, h'⟩
  · exact ⟨_, tc, t, _, by decide +kernel, h, h'⟩

theorem witness_RegistersReadBackAsWritten :
    ∃ (s t : State) (u u' bc : Byte) (a v : Word) (d : List Byte), s.memoryWf = true ∧ u' ≠ 0#8 ∧ 1 ≤ v.toNat ∧ v.toNat ≤ 123 ∧
      a.toNat + v.toNat ≤ s.cfg.nHr ∧ bc.toNat = 2 * v.toNat ∧ d.length = bc.toNat ∧
      exec (.wmr u (.fields a v bc d)) s = .next t := by
  obtain ⟨t, h, -⟩ := exists_of_nextSat (p := fun t => t.events == [.bcastOk 0x10#8])
    (o := exec (.wmr 0#8 (.fields 77#16 123#16 246#8 (List.replicate 246 0x5A#8))) (counts 200)) (by decide +kernel)
  exact ⟨counts 200, t, 0#8, 7#8, 246#8, 77#16, 123#16, _, by decide +kernel, by decide, by decide, by decide, by decide +kernel,
    by decide, by decide +kernel, h⟩

theorem witness_TablesChangeOnlyByASuccessfulWrite :
    ∃ s m t : State, beginTick s.input s = m ∧ step s = .next t ∧ t.hr ≠ m.hr := by
  obtain ⟨t, h, hp⟩ := exists_of_nextSat (p := fun t => t.hr != (met (due 1#8 [0x00#8, 0x06#8, 0x00#8, 0x00#8, 0x12#8, 0x34#8, 0x85#8, 0x6C#8])).hr)
    (o := step (due 1#8 [0x00#8, 0x06#8, 0x00#8, 0x00#8, 0x12#8, 0x34#8, 0x85#8, 0x6C#8])) (by decide +kernel)
  exact ⟨_, _, t, begins _ rfl, h, by simpa using hp⟩

theorem witness_HookOnlyForAddressedSuccess :
    (∃ (i : Instr) (s t : State), exec i s = .next t ∧ t.out.hook ≠ s.out.hook) ∧
    ∃ (i : Instr) (s t : State), exec i s = .next t ∧ t.pendHook ≠ s.pendHook := by
  obtain ⟨t, h, hp⟩ := exists_of_nextSat (p := fun t => t.out.hook != tc.out.hook)
    (o := exec (.rc 1#8 (.fields 0#16 1#16)) tc) (by decide +kernel)
  obtain ⟨t', h', hp'⟩ := exists_of_nextSat (p := fun t => t.pendHook != tc.pendHook)
    (o := exec (.wsr 1#8 (.fields 9#16 0#16)) tc) (by decide +kernel)
  exact ⟨⟨_, _, t, h, by simpa using hp⟩, ⟨_, _, t', h', by simpa using hp'⟩⟩

/-- The clause about every tick: a read's strobe, a strobe at the release, a hook that becomes due. -/
theorem witness_HookOnlyForAddressedSuccess_step :
    (∃ s m t : State, s.Inv ∧ beginTick s.input s = m ∧ step s = .next t ∧ (t.out.hook != none && t.phase == .transmit) = true) ∧
    (∃ s m t : State, s.Inv ∧ beginTick s.input s = m ∧ step s = .next t ∧ (t.out.hook != none && t.phase == .idle) = true) ∧
    ∃ s m t : State, s.Inv ∧ beginTick s.input s = m ∧ step s = .next t ∧ (t.pendHook != none && m.pendHook == none) = true := by
  obtain ⟨a, ha, pa⟩ := exists_of_nextSat (p := fun t => t.out.hook != none && t.phase == .transmit) (o := step pending) (by decide +kernel)
  obtain ⟨b, hb, pb⟩ := exists_of_nextSat (p := fun t => t.out.hook != none && t.phase == .idle)
    (o := step (given { txDone := true } (flushing 0#32 tc))) (by decide +kernel)
  obtain ⟨c, hc, pc⟩ := exists_of_nextSat
    (p := fun t => t.pendHook != none &&
      (met (due 1#8 [0x01#8, 0x05#8, 0x00#8, 0x04#8, 0xFF#8, 0x00#8, 0xCD#8, 0xFB#8])).pendHook == none)
    (o := step (due 1#8 [0x01#8, 0x05#8, 0x00#8, 0x04#8, 0xFF#8, 0x00#8, 0xCD#8, 0xFB#8])) (by decide +kernel)
  exact ⟨⟨_, _, a, by decide +kernel, begins _ rfl, ha, pa⟩, ⟨_, _, b, by decide +kernel, begins _ rfl, hb, pb⟩,
    ⟨_, _, c, by decide +kernel, begins _ rfl, hc, pc⟩⟩

theorem witness_ReplyDependsOnRequestAndTablesOnly :
    ∃ (i : Instr) (s s' t t' : State), s'.cfg = s.cfg ∧ s'.coil = s.coil ∧ s'.di = s.di ∧ s'.hr = s.hr ∧ s'.ir = s.ir ∧
      exec i s = .next t ∧ exec i s' = .next t' ∧ t.phase = .transmit ∧ s' ≠ s :=
  ⟨.rhr 1#8 (.fields 0#16 10#16), tc, sending 3 tc, _, _, rfl, rfl, rfl, rfl, rfl, rfl, rfl, by decide +kernel, by decide +kernel⟩

theorem witness_PhaseTransitionsAreTheListedOnes :
    (∃ s t : State, step s = .next t ∧ s.phase = .idle ∧ (t.phase == .receiving) = true) ∧
    (∃ s t : State, step s = .next t ∧ s.phase = .receiving ∧ (t.phase == .transmit) = true) ∧
    (∃ s t : State, step s = .next t ∧ s.phase = .receiving ∧ (t.phase == .idle) = true) ∧
    (∃ s t : State, step s = .next t ∧ s.phase = .transmit ∧ (t.phase == .flush) = true) ∧
    (∃ s t : State, step s = .next t ∧ s.phase = .flush ∧ (t.phase == .idle) = true) ∧
    ∃ s t : State, step s = .next t ∧ s.phase = .transmit ∧ s.input.rst ≠ none ∧ (t.phase == .idle) = true := by
  obtain ⟨a, ha, pa⟩ := exists_of_nextSat (p := fun t => t.phase == .receiving)
    (o := step (given { arrivals := [1#8] } { tc with sil := 35#32 })) (by decide +kernel)
  obtain ⟨b, hb, pb⟩ := exists_of_nextSat (p := fun t => t.phase == .transmit) (o := step pending) (by decide +kernel)
  obtain ⟨c, hc, pc⟩ := exists_of_nextSat (p := fun t => t.phase == .idle)
    (o := step (due 2#8 [0x01#8, 0x03#8, 0x40#8, 0x21#8])) (by decide +kernel)
  obtain ⟨d, hd, pd⟩ := exists_of_nextSat (p := fun t => t.phase == .flush)
    (o := step (given { txReady := true } (sending 4 tc))) (by decide +kernel)
  obtain ⟨e, he, pe⟩ := exists_of_nextSat (p := fun t => t.phase == .idle)
    (o := step (given { txDone := true } (flushing 0#32 tc))) (by decide +kernel)
  obtain ⟨f, hf, pf⟩ := exists_of_nextSat (p := fun t => t.phase == .idle)
    (o := step (given { rst := some Cfg.tc } (sending 4 tc))) (by decide +kernel)
  exact ⟨⟨_, a, ha, rfl, pa⟩, ⟨_, b, hb, rfl, pb⟩, ⟨_, c, hc, rfl, pc⟩, ⟨_, d, hd, rfl, pd⟩, ⟨_, e, he, rfl, pe⟩,
    ⟨_, f, hf, rfl, by simp [given, State.input], pf⟩⟩

theorem witness_TransmitOffersTheNextByte :
    (∃ s m : State, Ready s m ∧ m.phase = .transmit ∧ s.input.txReady = true ∧ m.txIdx + 1 = m.txLen) ∧
    (∃ s m : State, Ready s m ∧ m.phase = .transmit ∧ s.input.txReady = true ∧ m.txIdx + 1 ≠ m.txLen) ∧
    ∃ s m : State, Ready s m ∧ m.phase = .transmit ∧ s.input.txReady = false :=
  ⟨⟨given { txReady := true } (sending 4 tc), _, ready _ rfl rfl (by decide +kernel), rfl, rfl, by decide +kernel⟩,
    ⟨given { txReady := true } (sending 3 tc), _, ready _ rfl rfl (by decide +kernel), rfl, rfl, by decide +kernel⟩,
    ⟨given {} (sending 0 tc), _, ready _ rfl rfl (by decide +kernel), rfl, rfl⟩⟩

theorem witness_FlushHoldsThenReleases :
    (∃ s m : State, Ready s m ∧ m.phase = .flush ∧ s.input.txDone = false) ∧
    (∃ s m : State, Ready s m ∧ m.phase = .flush ∧ s.input.txDone = true ∧ m.hold.toNat < m.cfg.flushHold.toNat) ∧
    ∃ s m : State, Ready s m ∧ m.phase = .flush ∧ s.input.txDone = true ∧ m.cfg.flushHold.toNat ≤ m.hold.toNat :=
  ⟨⟨given {} (flushing 0#32 tc), _, ready _ rfl rfl (by decide +kernel), rfl, rfl⟩,
    ⟨given { txDone := true } (flushing 1#32 { tc with cfg := { Cfg.tc with flushHold := 2#32 } }), _,
      ready _ rfl rfl (by decide +kernel), rfl, rfl, by decide +kernel⟩,
    ⟨given { txDone := true } (flushing 2#32 { tc with cfg := { Cfg.tc with flushHold := 2#32 } }), _,
      ready _ rfl rfl (by decide +kernel), rfl, rfl, by decide +kernel⟩⟩

theorem witness_NoReleaseWithUnsentBytes :
    ∃ s t : State, s.doneTruthful = true ∧ step s = .next t ∧ s.input.rst = none ∧ s.phase = .flush ∧ (t.phase == .idle) = true := by
  obtain ⟨t, h, hp⟩ := exists_of_nextSat (p := fun t => t.phase == .idle)
    (o := step (given { txDone := true, txLeft := 1 } { flushing 0#32 tc with txPending := [0xF1#8] })) (by decide +kernel)
  exact ⟨_, t, by decide +kernel, h, rfl, rfl, hp⟩

theorem witness_TransmitEnableEnvelope :
    ∃ s t : State, s.Inv ∧ step s = .next t ∧ t.txEn = true := by
  obtain ⟨t, h, hp⟩ := exists_of_nextSat (p := State.txEn) (o := step (given { txReady := true } (sending 4 tc))) (by decide +kernel)
  exact ⟨_, t, by decide +kernel, h, hp⟩

theorem witness_WholeReplyIsHandedOver :
    ∃ (is rest : List TickInput) (s : State), s.env = is ++ rest ∧
      (∀ i ∈ is, Undisturbed i ∧ i.txReady = true) ∧ s.legal = true ∧ s.Inv ∧ s.phase = .transmit ∧
      is.length = s.txLen - s.txIdx :=
  ⟨List.replicate 5 { txReady := true, arrivals := [1#8], txLeft := 1, app := [.bit .coil 15 false] }, [],
    { sending 0 tc with env := List.replicate 5 { txReady := true, arrivals := [1#8], txLeft := 1, app := [.bit .coil 15 false] } },
    rfl, fun i hi => by rw [List.eq_of_mem_replicate hi]; exact ⟨rfl, rfl⟩, by decide +kernel, by decide +kernel, rfl, rfl⟩

theorem witness_TransportSilenceHangsVisibly :
    (∃ (is rest : List TickInput) (s : State), s.env = is ++ rest ∧ (∀ i ∈ is, Undisturbed i) ∧ s.legal = true ∧
      s.phase = .transmit ∧ (∀ i ∈ is, i.txReady = false) ∧ is ≠ []) ∧
    ∃ (is rest : List TickInput) (s : State), s.env = is ++ rest ∧ (∀ i ∈ is, Undisturbed i) ∧ s.legal = true ∧
      s.phase = .flush ∧ (∀ i ∈ is, i.txDone = false) ∧ is ≠ [] :=
  ⟨⟨[{ arrivals := [1#8] }], [], given { arrivals := [1#8] } (sending 0 tc), rfl,
      fun i hi => by rw [List.mem_singleton.1 hi]; exact rfl, by decide +kernel, rfl,
      fun i hi => by rw [List.mem_singleton.1 hi], by decide⟩,
    ⟨[{ txReady := true }], [], given { txReady := true } (flushing 0#32 tc), rfl,
      fun i hi => by rw [List.mem_singleton.1 hi]; exact rfl, by decide +kernel, rfl,
      fun i hi => by rw [List.mem_singleton.1 hi], by decide⟩⟩

/-- The last reply byte is taken in this tick, has left and is confirmed in the next, which releases. -/
theorem witness_EveryTransactionEndsInIdle :
    ∃ s : State, s.legal = true ∧ s.Inv ∧ TransportMeetsDuties s ∧ s.phase = .transmit := by
  let s : State := { sending 4 tc with env := [{ txReady := true, txDone := true }, { txLeft := 1, txDone := true }] }
  obtain ⟨m, hm, pm⟩ := exists_of_nextSat (o := step s)
    (p := fun m => m.phase == .flush && m.doneTruthful && m.input.txDone
      && nextSat (fun u => u.phase == .idle) (step m)) (by decide +kernel)
  simp only [Bool.and_eq_true, beq_iff_eq] at pm
  obtain ⟨⟨⟨pf, pt⟩, pd⟩, pn⟩ := pm
  obtain ⟨u, hu, pu⟩ := exists_of_nextSat pn
  have two : ∀ t, Busy s t → t = s ∨ t = m := by
    intro t ht
    cases ht with
    | here _ => exact .inl rfl
    | tick _ h1 h2 =>
      rw [hm] at h1; cases h1
      cases h2 with
      | here _ => exact .inr rfl
      | tick _ h3 h4 =>
        rw [hu] at h3; cases h3
        cases h4 with
        | here h => exact absurd (by simpa using pu) h
        | tick h _ _ => exact absurd (by simpa using pu) h
  refine ⟨s, by decide +kernel, by decide +kernel, ⟨?_, ?_, ?_⟩, rfl⟩
  · intro t ht hp
    rcases two t ht with rfl | rfl
    · exact ⟨s, .here s, .inr rfl⟩
    · rw [pf] at hp; cases hp
  · intro t ht hp
    rcases two t ht with rfl | rfl
    · cases hp
    · exact ⟨t, .here t, .inr pd⟩
  · intro t ht
    rcases two t ht with rfl | rfl
    · decide +kernel
    · exact pt

theorem witness_StepKeepsTheInvariant : ∃ s t : State, s.Inv ∧ step s = .next t := by
  obtain ⟨t, h, -⟩ := exists_of_nextSat (p := fun t => t.phase == .transmit) (o := step pending) (by decide +kernel)
  exact ⟨_, t, by decide +kernel, h⟩

end Sys2Proof.Tests
end

section
/-! PROOFS. The tick in which a frame completes (40_frame_receiver.md R138), taking an exception in the terms of the claims,
and the function codes outside the map (30_encoding.md R112). -/

namespace Sys2Proof.Machine

open Sys2Proof.Claims

variable {s m : State}

/-! ## The tick that runs EXEC -/

/-- The model's saturating count of silence is the one the claims speak of. -/
theorem counted_satIncr (m : State) : Counted m (satIncr m.sil) := by
  unfold Counted satIncr
  split
  · next h => simp [h]
  · next h =>
    have hlt : m.sil.toNat + 1 < 2 ^ 32 := by
      have hne : m.sil.toNat ≠ 2 ^ 32 - 1 := fun he => h (BitVec.eq_of_toNat_eq (by simp [he]))
      have := m.sil.isLt
      omega
    simp only [BitVec.toNat_add, BitVec.toNat_ofNat]
    omega

/-- In a legal tick without reset the engine makes the step of its phase. -/
theorem step_of_ready (h : Ready s m) : step s = phaseStep s.input m := by
  obtain ⟨rfl, hrst, hlegal⟩ := h
  simp only [step, engineTick, engineStep, hrst, hlegal, if_true]

/-- A silent tick that completes the buffered frame runs EXEC on it. -/
theorem receiveStep_of_completes (h : Completes m) : receiveStep m = execFrame (countSilence m) := by
  obtain ⟨hphase, hqueue, hlen, ht15⟩ := h
  have hcount : (satIncr m.sil).toNat = min (m.sil.toNat + 1) (2 ^ 32 - 1) := counted_satIncr m
  have hdue : minFrame ≤ m.rxLen ∧ m.t15.toNat ≤ (satIncr m.sil).toNat := ⟨hlen, hcount ▸ ht15⟩
  simp [receiveStep, receiveSilence, hqueue, hphase, hdue]

/-- The tick of R138: the step is EXEC, one more tick of silence counted. -/
theorem step_of_completes (hr : Ready s m) (hc : Completes m) : step s = execFrame (countSilence m) := by
  calc step s = phaseStep s.input m := step_of_ready hr
    _ = receiveStep m := by simp [phaseStep, hc.1]
    _ = execFrame (countSilence m) := receiveStep_of_completes hc

/-! ## Taking an exception -/

theorem bcast_eq_true_iff {u : Byte} : bcast u = true ↔ u = 0#8 := by simp [bcast]

theorem code_eq_codeOf (e : Exc) : e.code = codeOf e := by cases e <;> rfl

/-- A next state is reached, whatever its `tx_buf` holds. -/
theorem reaches_next (t : State) : Reaches (.next t) t := ⟨t.txBuf.drop t.txLen, by rw [List.take_append_drop]⟩

/-- Taking an exception is what the claims say a raised exception does. -/
theorem reaches_raiseExc (u fc : Byte) (e : Exc) (s : State) : Reaches (.next (raiseExc u fc e s)) (raises u fc e s) := by
  by_cases hu : u = 0#8
  · rw [raiseExc_bcast (bcast_eq_true_iff.2 hu), raises, if_pos hu]
    exact reaches_next (silently (.bcastExc fc e) s)
  · have hb : bcast u = false := Bool.eq_false_iff.2 (mt bcast_eq_true_iff.1 hu)
    rw [raiseExc_unicast hb, raises, if_neg hu]
    exact ⟨s.txBuf.drop 5, by rw [code_eq_codeOf]; rfl⟩

/-! ## Function codes outside the map -/

/-- A function code that is none of the eight is no request, whatever the payload. -/
theorem decodeRequest_unrecognized {fc : Byte}
    (h : fc ∉ [0x01#8, 0x02#8, 0x03#8, 0x04#8, 0x05#8, 0x06#8, 0x0F#8, 0x10#8]) (u : Byte) (p : List Byte) :
    decodeRequest u fc p = .error (.unrecognizedFunction u fc) := by
  simp only [List.mem_cons, List.not_mem_nil, or_false, not_or] at h
  obtain ⟨h1, h2, h3, h4, h5, h6, h15, h16⟩ := h
  simp only [decodeRequest, h1, h2, h3, h4, h5, h6, h15, h16, if_false]

/-- EXEC on an accepted frame outside the map raises IllegalFunction. -/
theorem execFrame_unrecognized {b : Bool} (hv : validate s.cfg.unitId s.frame = .accept b)
    (hfc : byteAt s.frame 1 ∉ [0x01#8, 0x02#8, 0x03#8, 0x04#8, 0x05#8, 0x06#8, 0x0F#8, 0x10#8]) :
    execFrame s = .next (raiseExc (byteAt s.frame 0) (byteAt s.frame 1) .illegalFunction s) := by
  have hd : decodeBody s.frame = .error (.unrecognizedFunction (byteAt s.frame 0) (byteAt s.frame 1)) :=
    decodeRequest_unrecognized hfc _ _
  simp only [execFrame, hv, dispatchFrame, hd]

end Sys2Proof.Machine

namespace Sys2Proof.Proofs

open Sys2Proof.Machine

/-- Settles O27: the completing tick runs EXEC, the decoder rejects the function code, and the dispatcher raises
IllegalFunction. -/
theorem unrecognizedFunctionIsAnswered : Obligations.UnrecognizedFunctionIsAnswered := by
  unfold Obligations.UnrecognizedFunctionIsAnswered
  intro s m b hready hcompletes haccept hfc
  refine ⟨satIncr m.sil, counted_satIncr m, ?_⟩
  rw [step_of_completes hready hcompletes, execFrame_unrecognized (s := countSilence m) haccept hfc]
  exact reaches_raiseExc _ _ _ (countSilence m)

end Sys2Proof.Proofs
end

section
/-! PROOFS. The frame receiver in IDLE (40_frame_receiver.md R135, R136): the byte that opens a frame, and the tick of
silence. -/

namespace Sys2Proof.Machine

open Sys2Proof.Claims

variable {s m : State}

/-- In a legal tick without reset an engine in IDLE makes the receiver's step (10_state.md R22). -/
theorem step_of_idle (hr : Ready s m) (hp : m.phase = .idle) : step s = receiveStep m := by
  rw [step_of_ready hr, phaseStep, hp]

/-- A byte in the queue is popped and taken (40_frame_receiver.md R131, R132). -/
theorem receiveStep_of_byte {b : Byte} {q : List Byte} (hq : m.rxQueue = b :: q) :
    receiveStep m = .next (receiveByte b (popByte q m)) := by
  rw [receiveStep, hq]

/-- With an empty queue a tick of silence is counted (40_frame_receiver.md R133). -/
theorem receiveStep_of_empty (hq : m.rxQueue = []) : receiveStep m = receiveSilence (countSilence m) := by
  rw [receiveStep, hq]

/-- In IDLE, after `T35` ticks of silence, the byte taken is the first of a frame. -/
theorem receiveByte_of_silent {b : Byte} (hp : m.phase = .idle) (ht : m.t35.toNat ≤ m.sil.toNat) :
    receiveByte b m = firstByte b m := by
  simp only [receiveByte, hp, Nat.not_lt.2 ht, if_false]

/-- In IDLE a counted tick of silence has no further effect. -/
theorem receiveSilence_of_idle (hp : m.phase = .idle) : receiveSilence m = .next m := by
  rw [receiveSilence, hp]

end Sys2Proof.Machine

namespace Sys2Proof.Proofs

open Sys2Proof.Machine

/-- Settles O16: the receiver pops the byte, and the silence before it being `T35` or more, stores it as the first of a
frame; popping touches neither the silence nor `T35`. -/
theorem firstByteIsAccepted : Obligations.FirstByteIsAccepted := by
  unfold Obligations.FirstByteIsAccepted
  intro s m b q hready hphase hqueue hsilent
  have htaken : receiveByte b (popByte q m) = firstByte b (popByte q m) := receiveByte_of_silent hphase hsilent
  rw [step_of_idle hready hphase, receiveStep_of_byte hqueue, htaken]
  rfl

/-- Settles O17: the receiver counts the tick of silence, saturating, and in IDLE waits. -/
theorem idleSilenceIsCounted : Obligations.IdleSilenceIsCounted := by
  unfold Obligations.IdleSilenceIsCounted
  intro s m hready hphase hqueue
  refine ⟨satIncr m.sil, counted_satIncr m, ?_⟩
  calc step s = receiveStep m := step_of_idle hready hphase
    _ = receiveSilence (countSilence m) := receiveStep_of_empty hqueue
    _ = .next (countSilence m) := receiveSilence_of_idle hphase

end Sys2Proof.Proofs
end

section
/-! PROOFS. The silent drop of a completed buffer (41_request_validator.md R164). -/

namespace Sys2Proof.Machine

open Sys2Proof.Claims

variable {s m : State}

/-- Every output port is 0 until the engine steps. -/
@[simp] theorem beginTick_out (i : TickInput) (s : State) : (beginTick i s).out = {} := by
  rw [(beginTick_eq i s).1]

/-- A state the engine steps from has every output port at 0. -/
theorem out_of_ready (h : Ready s m) : m.out = {} := by
  obtain ⟨rfl, -, -⟩ := h
  exact beginTick_out s.input s

/-- The model's drop is the transaction the claims call silently ended. -/
theorem dropFrame_eq_silently (e : Event) (s : State) : dropFrame e s = silently e s := rfl

/-- EXEC on a buffer the validator drops is that drop and nothing else. -/
theorem execFrame_of_drop {e : Event} (hv : validate s.cfg.unitId s.frame = .drop e) :
    execFrame s = .next (silently e s) := by
  simp only [execFrame, hv, dropFrame_eq_silently]

end Sys2Proof.Machine

namespace Sys2Proof.Proofs

open Sys2Proof.Machine

/-- Settles O26: the tick begins with every output port at 0 and runs EXEC with its silence counted; EXEC drops the
buffer. -/
theorem droppedFrameLeavesNoTrace : Obligations.DroppedFrameLeavesNoTrace := by
  unfold Obligations.DroppedFrameLeavesNoTrace
  intro s m e hready hcompletes hdrop
  refine ⟨satIncr m.sil, counted_satIncr m, out_of_ready hready, ?_⟩
  rw [step_of_completes hready hcompletes]
  exact execFrame_of_drop (s := countSilence m) hdrop

end Sys2Proof.Proofs
end

section
/-! PROOFS. The dispatcher's checks that fail (42_dispatcher.md R172, R173, R175), the exceptions they raise, and the hook
of the single writes (R178). -/

namespace Sys2Proof.Machine

open Sys2Proof.Claims

variable {s : State} {u fc : Byte} {e : Exc}

/-! ## Which check fails -/

/-- K1 of an RQ8 request comes before any look at its payload (42_dispatcher.md R173). -/
theorem checkRq8_of_unbound {count : Nat} (h : count = 0) (q : Word → Nat) (ok : Word → Bool) (r : Rq8) :
    checkRq8 count q ok r = .error .illegalDataAddress := by
  unfold checkRq8
  exact if_pos h

/-- K1 of an RQM request comes before any look at its payload (42_dispatcher.md R173). -/
theorem checkRqm_of_unbound {count : Nat} (h : count = 0) (limit : Nat) (bf : Word → Nat) (r : Rqm) :
    checkRqm count limit bf r = .error .illegalDataAddress := by
  unfold checkRqm
  exact if_pos h

theorem quantityOk_eq_false_iff {limit : Nat} {v : Word} :
    quantityOk limit v = false ↔ v.toNat < 1 ∨ limit < v.toNat := by
  rw [← Bool.not_eq_true, quantityOk, Bool.and_eq_true, decide_eq_true_iff, decide_eq_true_iff]
  omega

/-- An RQ8 request that passes K1 to K3 and has a bad value fails at K4. -/
theorem checkRq8_of_badValue {count : Nat} {q : Word → Nat} {ok : Word → Bool} {a v : Word} (hbound : count ≠ 0)
    (hin : a.toNat + q v ≤ count) (hbad : ok v = false) :
    checkRq8 count q ok (.fields a v) = .error .illegalDataValue := by
  simp only [checkRq8, if_neg hbound, if_neg (Nat.not_lt.2 hin), hbad, Bool.false_eq_true, if_false]

/-- An RQM request that passes K1 to K3 and has a bad quantity fails at K4, whatever its byte count and data. -/
theorem checkRqm_of_badQuantity {count limit : Nat} {a v : Word} (hbound : count ≠ 0) (hin : a.toNat + v.toNat ≤ count)
    (hbad : quantityOk limit v = false) (bf : Word → Nat) (bc : Byte) (d : List Byte) :
    checkRqm count limit bf (.fields a v bc d) = .error .illegalDataValue := by
  simp only [checkRqm, if_neg hbound, if_neg (Nat.not_lt.2 hin), hbad, Bool.false_and, Bool.false_eq_true, if_false]

/-! ## A failed check raises its exception -/

theorem reaches_readBitsRequest_of_error {sp : BitSpace} {r : Rq8}
    (h : checkRq8 (s.bitCount sp) quantityV (quantityOk 2000) r = .error e) :
    Reaches (.next (readBitsRequest sp u fc r s)) (raises u fc e s) := by
  rw [readBitsRequest, h]
  exact reaches_raiseExc u fc e s

theorem reaches_readWordsRequest_of_error {sp : WordSpace} {r : Rq8}
    (h : checkRq8 (s.wordCount sp) quantityV (quantityOk 125) r = .error e) :
    Reaches (.next (readWordsRequest sp u fc r s)) (raises u fc e s) := by
  rw [readWordsRequest, h]
  exact reaches_raiseExc u fc e s

theorem reaches_execWsc_of_error {r : Rq8} (h : checkRq8 (s.bitCount .coil) quantityOne coilValueOk r = .error e) :
    Reaches (execWsc u r s) (raises u 0x05#8 e s) := by
  rw [execWsc, h]
  exact reaches_raiseExc u _ e s

theorem reaches_execWsr_of_error {r : Rq8} (h : checkRq8 (s.wordCount .hr) quantityOne anyValueOk r = .error e) :
    Reaches (execWsr u r s) (raises u 0x06#8 e s) := by
  rw [execWsr, h]
  exact reaches_raiseExc u _ e s

theorem reaches_execWmc_of_error {r : Rqm} (h : checkRqm (s.bitCount .coil) 1968 bytesForBits r = .error e) :
    Reaches (execWmc u r s) (raises u 0x0F#8 e s) := by
  rw [execWmc, h]
  exact reaches_raiseExc u _ e s

theorem reaches_execWmr_of_error {r : Rqm} (h : checkRqm (s.wordCount .hr) 123 bytesForWords r = .error e) :
    Reaches (execWmr u r s) (raises u 0x10#8 e s) := by
  rw [execWmr, h]
  exact reaches_raiseExc u _ e s

/-! ## A quantity outside its limit -/

variable {a v : Word}

theorem reaches_readBitsRequest_of_badQuantity {sp : BitSpace} (hin : a.toNat + v.toNat ≤ s.bitCount sp)
    (hbound : s.bitCount sp ≠ 0) (hq : v.toNat < 1 ∨ 2000 < v.toNat) :
    Reaches (.next (readBitsRequest sp u fc (.fields a v) s)) (raises u fc .illegalDataValue s) :=
  reaches_readBitsRequest_of_error (checkRq8_of_badValue hbound hin (quantityOk_eq_false_iff.2 hq))

theorem reaches_readWordsRequest_of_badQuantity {sp : WordSpace} (hin : a.toNat + v.toNat ≤ s.wordCount sp)
    (hbound : s.wordCount sp ≠ 0) (hq : v.toNat < 1 ∨ 125 < v.toNat) :
    Reaches (.next (readWordsRequest sp u fc (.fields a v) s)) (raises u fc .illegalDataValue s) :=
  reaches_readWordsRequest_of_error (checkRq8_of_badValue hbound hin (quantityOk_eq_false_iff.2 hq))

/-! ## The hook of a single write -/

/-- The normal end of an addressed write makes its hook due, when there is one. -/
theorem complete_post_pendHook (hu : u ≠ 0#8) (hhook : s.cfg.hasHook = true) (p : List Byte) (k : Hook) :
    (complete u fc p .post k s).pendHook = some k := by
  have hb : bcast u = false := Bool.eq_false_iff.2 (mt bcast_eq_true_iff.1 hu)
  simp only [complete_unicast hb, emit_pendHook, notify, loadReply_cfg, hhook, if_true]

/-- The due hook of Write Single Coil has quantity 1 (42_dispatcher.md R178, decision D17). -/
theorem exec_wsc_pendHook (hu : u ≠ 0#8) (hhook : s.cfg.hasHook = true) (hin : a.toNat + 1 ≤ s.cfg.nCoil)
    (hv : v = 0x0000#16 ∨ v = 0xFF00#16) :
    ∃ t, exec (.wsc u (.fields a v)) s = .next t ∧ t.pendHook = some ⟨0x05#8, a, 1#16⟩ := by
  have hcheck : checkRq8 (s.bitCount .coil) quantityOne coilValueOk (.fields a v) = .ok (a, v) :=
    checkRq8_eq_ok.2 ⟨rfl, Nat.ne_of_gt (Nat.lt_of_lt_of_le (Nat.succ_pos _) hin), hin, by simpa [coilValueOk] using hv⟩
  refine ⟨_, by rw [exec, execWsc, hcheck], complete_post_pendHook hu ?_ _ _⟩
  rwa [bitsWrite_cfg]

/-- The due hook of Write Single Register has quantity 1 (42_dispatcher.md R178, decision D17). -/
theorem exec_wsr_pendHook (hu : u ≠ 0#8) (hhook : s.cfg.hasHook = true) (hin : a.toNat + 1 ≤ s.cfg.nHr) :
    ∃ t, exec (.wsr u (.fields a v)) s = .next t ∧ t.pendHook = some ⟨0x06#8, a, 1#16⟩ := by
  have hcheck : checkRq8 (s.wordCount .hr) quantityOne anyValueOk (.fields a v) = .ok (a, v) :=
    checkRq8_eq_ok.2 ⟨rfl, Nat.ne_of_gt (Nat.lt_of_lt_of_le (Nat.succ_pos _) hin), hin, rfl⟩
  refine ⟨_, by rw [exec, execWsr, hcheck], complete_post_pendHook hu ?_ _ _⟩
  rwa [wordsWrite_cfg]

end Sys2Proof.Machine

namespace Sys2Proof.Proofs

open Sys2Proof.Machine

/-- Settles O40: a quantity outside its limit fails K4 in each of the six requests that have one, and a single write ends
normally with quantity 1 in its hook. -/
theorem quantityLimitsAreChecked : Obligations.QuantityLimitsAreChecked := by
  unfold Obligations.QuantityLimitsAreChecked
  intro s u bc a v d
  refine ⟨?rc, ?rdi, ?rhr, ?rir, ?wmc, ?wmr, exec_wsc_pendHook, exec_wsr_pendHook⟩
  case rc => exact reaches_readBitsRequest_of_badQuantity (sp := .coil)
  case rdi => exact reaches_readBitsRequest_of_badQuantity (sp := .di)
  case rhr => exact reaches_readWordsRequest_of_badQuantity (sp := .hr)
  case rir => exact reaches_readWordsRequest_of_badQuantity (sp := .ir)
  case wmc =>
    intro hin hbound hq
    exact reaches_execWmc_of_error (checkRqm_of_badQuantity hbound hin (quantityOk_eq_false_iff.2 hq) _ bc d)
  case wmr =>
    intro hin hbound hq
    exact reaches_execWmr_of_error (checkRqm_of_badQuantity hbound hin (quantityOk_eq_false_iff.2 hq) _ bc d)

/-- Settles O37: K1 fails first in every handler, before the payload is looked at. -/
theorem unboundTableRejectsEveryRequest : Obligations.UnboundTableRejectsEveryRequest := by
  unfold Obligations.UnboundTableRejectsEveryRequest
  intro s u r q
  refine ⟨fun hcoil => ⟨?rc, ?wsc, ?wmc⟩, fun hdi => ?rdi, fun hhr => ⟨?rhr, ?wsr, ?wmr⟩, fun hir => ?rir⟩
  case rc => exact reaches_readBitsRequest_of_error (checkRq8_of_unbound hcoil _ _ r)
  case wsc => exact reaches_execWsc_of_error (checkRq8_of_unbound hcoil _ _ r)
  case wmc => exact reaches_execWmc_of_error (checkRqm_of_unbound hcoil _ _ q)
  case rdi => exact reaches_readBitsRequest_of_error (checkRq8_of_unbound hdi _ _ r)
  case rhr => exact reaches_readWordsRequest_of_error (checkRq8_of_unbound hhr _ _ r)
  case wsr => exact reaches_execWsr_of_error (checkRq8_of_unbound hhr _ _ r)
  case wmr => exact reaches_execWmr_of_error (checkRqm_of_unbound hhr _ _ q)
  case rir => exact reaches_readWordsRequest_of_error (checkRq8_of_unbound hir _ _ r)

end Sys2Proof.Proofs
end

section
/-! PROOFS. Read Holding Registers (44_read_registers.md R200): the checks K2 and K3 that fail (42_dispatcher.md R174,
R176), the normal end of a read in the terms of the claims, and the registers in the reply. -/

namespace Sys2Proof

/-- Word `i` stands at bytes `2i` and `2i + 1`, high byte first (30_encoding.md R103). -/
theorem wordBytes_getD {ws : List Word} {i : Nat} {w : Word} (h : ws[i]? = some w) :
    (wordBytes ws).getD (2 * i) 0#8 = hi w ∧ (wordBytes ws).getD (2 * i + 1) 0#8 = lo w := by
  induction ws generalizing i with
  | nil => cases h
  | cons w' ws ih =>
    cases i with
    | zero =>
      cases h
      exact ⟨rfl, rfl⟩
    | succ i => exact ih h

end Sys2Proof

namespace Sys2Proof.Machine

open Sys2Proof.Claims

variable {s : State} {u fc : Byte} {a v : Word}

/-- A bound table and a payload of another length fail at K2. -/
theorem checkRq8_of_missized {count : Nat} (hbound : count ≠ 0) (q : Word → Nat) (ok : Word → Bool) (p : List Byte) :
    checkRq8 count q ok (.missized p) = .error .illegalDataValue := by
  simp only [checkRq8, if_neg hbound]

/-- A range that ends above the count fails at K3, whatever the value. -/
theorem checkRq8_of_outOfBounds {count : Nat} {q : Word → Nat} (hbound : count ≠ 0) (hout : count < a.toNat + q v)
    (ok : Word → Bool) : checkRq8 count q ok (.fields a v) = .error .illegalDataAddress := by
  simp only [checkRq8, if_neg hbound, if_pos hout]

theorem quantityOk_eq_true_iff {limit : Nat} : quantityOk limit v = true ↔ 1 ≤ v.toNat ∧ v.toNat ≤ limit := by
  rw [quantityOk, Bool.and_eq_true, decide_eq_true_iff, decide_eq_true_iff]

/-- A state whose `tx_buf` is filled exactly to `tx_len` is reached whatever bytes stand above it. -/
theorem reaches_of_filled {t t' : State} (hlen : t.txLen = t.txBuf.length) (rest : List Byte)
    (h : t' = { t with txBuf := t.txBuf ++ rest }) : Reaches (.next t') t :=
  ⟨rest, by rw [h, hlen, List.take_length]⟩

/-- The hook of a read is on the port in this tick, when there is one (42_dispatcher.md R178). -/
theorem notify_pre (k : Hook) (s : State) :
    notify .pre k s = { s with out := { s.out with hook := if s.cfg.hasHook then some k else s.out.hook } } := by
  unfold notify
  split <;> rfl

/-- The model's normal end of a read is the one the claims speak of. -/
theorem reaches_complete_pre (u fc : Byte) (p : List Byte) (a v : Word) (s : State) :
    Reaches (.next (complete u fc p .pre ⟨fc, a, v⟩ s)) (readEnds u fc a v p s) := by
  by_cases hu : u = 0#8
  · rw [complete_bcast (bcast_eq_true_iff.2 hu), readEnds, if_pos hu]
    exact reaches_next (silently (.bcastOk fc) s)
  · have hb : bcast u = false := Bool.eq_false_iff.2 (mt bcast_eq_true_iff.1 hu)
    have hlen : (withCrc (u :: fc :: p)).length = (u :: fc :: p).length + 2 := withCrc_length _
    rw [complete_unicast hb, notify_pre, loadReply, hlen, readEnds, if_neg hu]
    exact reaches_of_filled hlen.symm (s.txBuf.drop ((u :: fc :: p).length + 2)) rfl

/-- A word read whose checks pass ends normally with the words it reads. -/
theorem reaches_readWordsRequest_of_ok {sp : WordSpace} {r : Rq8}
    (h : checkRq8 (s.wordCount sp) quantityV (quantityOk 125) r = .ok (a, v)) :
    Reaches (.next (readWordsRequest sp u fc r s))
      (readEnds u fc a v (wordReply (s.wordsRead sp a.toNat v.toNat)) s) := by
  rw [readWordsRequest, h]
  exact reaches_complete_pre u fc _ a v s

theorem wordsRead_getElem? (sp : WordSpace) {a n i : Nat} (h : i < n) :
    (s.wordsRead sp a n)[i]? = some (s.wordAt sp (a + i)) := cellsRead_getElem? _ _ a n i h

/-- A word read with its range in bounds and its quantity within the limit replies with `2V` and the words, high byte
first (44_read_registers.md R200, R201). -/
theorem reaches_readWordsRequest_of_inBounds {sp : WordSpace} (hin : a.toNat + v.toNat ≤ s.wordCount sp)
    (hlo : 1 ≤ v.toNat) (hhi : v.toNat ≤ 125) :
    ∃ d : List Byte, d.length = 2 * v.toNat ∧
      (∀ i, i < v.toNat → d.getD (2 * i) 0#8 = hi (s.wordAt sp (a.toNat + i)) ∧
        d.getD (2 * i + 1) 0#8 = lo (s.wordAt sp (a.toNat + i))) ∧
      Reaches (.next (readWordsRequest sp u fc (.fields a v) s))
        (readEnds u fc a v (BitVec.ofNat 8 (2 * v.toNat) :: d) s) := by
  have hbound : s.wordCount sp ≠ 0 := by omega
  have hcheck : checkRq8 (s.wordCount sp) quantityV (quantityOk 125) (.fields a v) = .ok (a, v) :=
    checkRq8_eq_ok.2 ⟨rfl, hbound, hin, quantityOk_eq_true_iff.2 ⟨hlo, hhi⟩⟩
  have hreply := reaches_readWordsRequest_of_ok (u := u) (fc := fc) hcheck
  rw [wordReply, wordsRead_length] at hreply
  exact ⟨wordBytes (s.wordsRead sp a.toNat v.toNat), by rw [wordBytes_length, wordsRead_length],
    fun _ hlt => wordBytes_getD (wordsRead_getElem? sp hlt), hreply⟩

end Sys2Proof.Machine

namespace Sys2Proof.Proofs

open Sys2Proof.Machine

/-- Settles O31: a request that fails K1, K2, K3 or K4 raises the exception of the first check it fails, and one that
passes all four replies with the registers. -/
theorem readHoldingRegistersReplies : Obligations.ReadHoldingRegistersReplies := by
  unfold Obligations.ReadHoldingRegistersReplies
  intro s u
  refine ⟨?unbound, ?missized, fun a v hbound => ⟨?outOfBounds, ?badQuantity, ?passes⟩⟩
  case unbound =>
    intro r hzero
    exact reaches_readWordsRequest_of_error (checkRq8_of_unbound hzero _ _ r)
  case missized =>
    intro p hbound
    exact reaches_readWordsRequest_of_error (checkRq8_of_missized hbound _ _ p)
  case outOfBounds =>
    intro hout
    exact reaches_readWordsRequest_of_error (checkRq8_of_outOfBounds hbound hout _)
  case badQuantity =>
    intro hin
    exact reaches_readWordsRequest_of_badQuantity (sp := .hr) hin hbound
  case passes => exact reaches_readWordsRequest_of_inBounds (sp := .hr)

end Sys2Proof.Proofs
end

section
/-! PROOFS. The transactions that build no reply (47_response_builder.md R233): drops, ignored frames and broadcasts end
silently. -/

namespace Sys2Proof

/-- A decoded request carries the unit byte of its frame (30_encoding.md R91). -/
theorem unit_of_decodeRequest_ok {u fc : Byte} {p : List Byte} {i : Instr} (h : decodeRequest u fc p = .ok i) :
    i.unit = u := by
  unfold decodeRequest at h
  split_ifs at h <;> cases h <;> rfl

end Sys2Proof

namespace Sys2Proof.Machine

open Sys2Proof.Claims

variable {s t w : State}

/-- A table write leaves the response builder's registers as they are. -/
theorem WritesTables.replyRegisters (h : WritesTables s w) :
    w.txBuf = s.txBuf ∧ w.txLen = s.txLen ∧ w.txIdx = s.txIdx ∧ w.txEnR = s.txEnR := by
  rw [h.same]
  exact ⟨rfl, rfl, rfl, rfl⟩

/-- `t` is `s`, with at most the bus's own tables written, ended without a reply. -/
def EndsSilently (s t : State) : Prop := ∃ e w, WritesTables s w ∧ t = silently e w

/-- A transaction that ends silently writes none of the response builder's registers, and its phase is IDLE. -/
theorem EndsSilently.noReply (h : EndsSilently s t) :
    t.txBuf = s.txBuf ∧ t.txLen = s.txLen ∧ t.txIdx = s.txIdx ∧ t.txEnR = s.txEnR ∧ t.phase = .idle := by
  obtain ⟨e, w, hw, rfl⟩ := h
  obtain ⟨hbuf, hlen, hidx, hen⟩ := hw.replyRegisters
  exact ⟨hbuf, hlen, hidx, hen, rfl⟩

theorem endsSilently_dropFrame (e : Event) (s : State) : EndsSilently s (dropFrame e s) := ⟨e, s, .refl s, rfl⟩

/-- An exception to a broadcast is not sent (60_exceptions.md R273). -/
theorem endsSilently_raiseExc (fc : Byte) (e : Exc) (s : State) : EndsSilently s (raiseExc 0#8 fc e s) :=
  ⟨.bcastExc fc e, s, .refl s, raiseExc_bcast rfl e⟩

/-- The normal end of a broadcast is not sent (42_dispatcher.md R177). -/
theorem endsSilently_complete (hw : WritesTables s w) (fc : Byte) (p : List Byte) (time : HookTime) (k : Hook) :
    EndsSilently s (complete 0#8 fc p time k w) :=
  ⟨.bcastOk fc, w, hw, complete_bcast rfl p time k⟩

/-- A broadcast request ends silently, whichever of its checks fails or passes. -/
theorem exec_endsSilently {i : Instr} (hu : i.unit = 0#8) (s : State) :
    ∃ t, exec i s = .next t ∧ EndsSilently s t := by
  rcases exec_cases i s with ⟨e, hexec⟩ | ⟨w, p, time, k, hw, -, hexec⟩
  · rw [hu] at hexec
    exact ⟨_, hexec, endsSilently_raiseExc i.fc e s⟩
  · rw [hu] at hexec
    exact ⟨_, hexec, endsSilently_complete hw i.fc p time k⟩

/-- EXEC ends silently on a buffer that the validator drops, for whatever reason, or whose unit byte is 0. -/
theorem execFrame_endsSilently
    (h : (∃ e, validate s.cfg.unitId s.frame = .drop e) ∨ byteAt s.frame 0 = 0#8) :
    ∃ t, execFrame s = .next t ∧ EndsSilently s t := by
  have hunit {b : Bool} (hok : validate s.cfg.unitId s.frame = .accept b) : byteAt s.frame 0 = 0#8 :=
    h.resolve_left (by simp [hok])
  rcases execFrame_cases s with ⟨e, -, hexec⟩ | ⟨b, i, hok, hdec, hexec⟩ | ⟨b, r, hok, -, hexec⟩
  · exact ⟨_, hexec, endsSilently_dropFrame e s⟩
  · rw [hexec]
    exact exec_endsSilently ((unit_of_decodeRequest_ok hdec).trans (hunit hok)) s
  · rw [hunit hok] at hexec
    exact ⟨_, hexec, endsSilently_raiseExc (byteAt s.frame 1) .illegalFunction s⟩

end Sys2Proof.Machine

namespace Sys2Proof.Proofs

open Sys2Proof.Machine

/-- Settles O28: the completing tick runs EXEC with its silence counted, and EXEC ends silently. -/
theorem noReplyToBroadcastOrDrop : Obligations.NoReplyToBroadcastOrDrop := by
  unfold Obligations.NoReplyToBroadcastOrDrop
  intro s m hready hcompletes hcause
  obtain ⟨t, hexec, hsilent⟩ := execFrame_endsSilently (s := countSilence m) hcause
  exact ⟨t, (step_of_completes hready hcompletes).trans hexec, hsilent.noReply⟩

end Sys2Proof.Proofs
end

section
/-! PROOFS. The CRC check of a frame with one byte replaced (48_crc16.md R254): every stage of the CRC is injective, so
another byte in the body changes the computed CRC and not the received one, and another byte in the CRC field changes the
received CRC and not the computed one. -/

namespace Sys2Proof

open Function (Injective injective_id)

variable {f s : List Byte} {i k : Nat} {v w : Byte}

/-! ## The CRC of a body -/

/-- The bit that leaves comes back as bit 15, because bit 15 of 0xA001 is 1. -/
theorem crcShift_getLsbD_fifteen (c : Word) : (crcShift c).getLsbD 15 = c.getLsbD 0 := by
  unfold crcShift
  split <;> simp_all

theorem crcShift_injective : Injective crcShift := by
  intro c d h
  have hlow : c.getLsbD 0 = d.getLsbD 0 := by
    rw [← crcShift_getLsbD_fifteen, h, crcShift_getLsbD_fifteen]
  have hrest : c >>> 1 = d >>> 1 := by
    unfold crcShift at h
    rw [hlow] at h
    split at h
    · exact (BitVec.xor_left_inj _).1 h
    · exact h
  refine BitVec.eq_of_getLsbD_eq fun i _ => ?_
  cases i with
  | zero => exact hlow
  | succ i => simpa [Nat.add_comm] using congrArg (·.getLsbD i) hrest

theorem crcShifts_injective (n : Nat) : Injective (crcShifts n) := by
  induction n with
  | zero => exact injective_id
  | succ n ih => exact ih.comp crcShift_injective

theorem crcByte_register_injective (b : Byte) : Injective (crcByte · b) :=
  fun _ _ h => (BitVec.xor_left_inj _).1 (crcShifts_injective 8 h)

theorem crcByte_byte_injective (c : Word) : Injective (crcByte c) := by
  intro v w h
  have hwide : v.setWidth 16 = w.setWidth 16 := (BitVec.xor_right_inj c).1 (crcShifts_injective 8 h)
  simpa using congrArg (BitVec.setWidth 8) hwide

/-- The bytes that follow never cancel a difference in the register. -/
theorem foldl_crcByte_injective (s : List Byte) : Injective (s.foldl crcByte) := by
  induction s with
  | nil => exact injective_id
  | cons b s ih => exact ih.comp (crcByte_register_injective b)

theorem crc16_set_injective (hk : k < s.length) : Injective fun v => crc16 (s.set k v) := by
  intro v w h
  simp only [crc16, List.set_eq_take_append_cons_drop, if_pos hk, List.foldl_append, List.foldl_cons] at h
  exact crcByte_byte_injective _ (foldl_crcByte_injective _ h)

/-! ## The CRC field -/

theorem byteAt_set_self (hk : k < f.length) (v : Byte) : byteAt (f.set k v) k = v := by
  simp [byteAt, hk]

theorem byteAt_set_of_ne (h : k ≠ i) (v : Byte) : byteAt (f.set k v) i = byteAt f i := by
  simp [byteAt, List.getElem?_set_ne h]

/-- The received CRC: the last two bytes, low byte first (48_crc16.md R251). -/
def receivedCrc (f : List Byte) : Word := be16 (byteAt f (f.length - 1)) (byteAt f (f.length - 2))

theorem crcOk_eq_true_iff : crcOk f = true ↔ crc16 (f.take (f.length - 2)) = receivedCrc f := beq_iff_eq

theorem hi_receivedCrc (f : List Byte) : hi (receivedCrc f) = byteAt f (f.length - 1) := hi_be16 _ _

theorem lo_receivedCrc (f : List Byte) : lo (receivedCrc f) = byteAt f (f.length - 2) := lo_be16 _ _

theorem receivedCrc_set_body (hk : k < f.length - 2) (v : Byte) : receivedCrc (f.set k v) = receivedCrc f := by
  simp only [receivedCrc, List.length_set]
  rw [byteAt_set_of_ne (by omega), byteAt_set_of_ne (by omega)]

theorem receivedCrc_set_injective (hk : k < f.length) (hfield : f.length - 2 ≤ k) :
    Injective fun v => receivedCrc (f.set k v) := by
  intro v w h
  by_cases hlast : k = f.length - 1
  · have hhi := congrArg hi h
    simpa only [hi_receivedCrc, List.length_set, ← hlast, byteAt_set_self hk] using hhi
  · have hlow : k = f.length - 2 := by omega
    have hlo := congrArg lo h
    simpa only [lo_receivedCrc, List.length_set, ← hlow, byteAt_set_self hk] using hlo

/-! ## The whole frame -/

/-- At most one value of each byte passes the CRC check, the other bytes being given. -/
theorem crcOk_set_unique (hk : k < f.length) (hv : crcOk (f.set k v) = true) (hw : crcOk (f.set k w) = true) :
    v = w := by
  rw [crcOk_eq_true_iff, List.length_set] at hv hw
  by_cases hbody : k < f.length - 2
  · rw [receivedCrc_set_body hbody, List.take_set] at hv hw
    exact crc16_set_injective (by rw [List.length_take]; omega) (hv.trans hw.symm)
  · have hfield : f.length - 2 ≤ k := Nat.le_of_not_lt hbody
    rw [List.take_set_of_le hfield] at hv hw
    exact receivedCrc_set_injective hk hfield (hv.symm.trans hw)

/-- Another value in any one byte of a frame that passes the CRC check fails it. -/
theorem crcOk_set_of_ne (hok : crcOk f = true) (hk : k < f.length) (hv : v ≠ byteAt f k) :
    crcOk (f.set k v) = false := by
  have hsame : f.set k (byteAt f k) = f := by simp [byteAt, hk]
  refine Bool.eq_false_iff.2 fun hset => hv (crcOk_set_unique hk hset ?_)
  rwa [hsame]

theorem flipBit_ne_self {j : Nat} (hj : j < 8) (b : Byte) : b ^^^ (1#8 <<< j) ≠ b := by
  intro h
  have hbit := congrArg (·.getLsbD j) h
  simp [hj] at hbit

end Sys2Proof

namespace Sys2Proof.Machine

/-- A frame that is long enough and fails the CRC check is dropped for it (41_request_validator.md R162). -/
theorem validate_of_badCrc {f : List Byte} (hlen : minFrame ≤ f.length) (hcrc : crcOk f = false) (unitId : Byte) :
    validate unitId f = .drop .dropCrc := by
  rw [validate, if_neg (Nat.not_lt.2 hlen), hcrc]
  rfl

end Sys2Proof.Machine

namespace Sys2Proof.Proofs

open Sys2Proof.Machine

/-- Settles O7: the flipped byte differs from the valid one, so the CRC check fails, and the length is as before. -/
theorem singleBitFlipIsDropped : Obligations.SingleBitFlipIsDropped := by
  unfold Obligations.SingleBitFlipIsDropped
  intro unitId f k j hlen hok hk hj
  exact validate_of_badCrc (by rwa [List.length_set]) (crcOk_set_of_ne hok hk (flipBit_ne_self hj _)) unitId

end Sys2Proof.Proofs
end

section
/-! PROOFS. The decoder and the encoder (30_encoding.md) are inverse to each other, and the decoder rejects by name; the
validator's verdict (41_request_validator.md R166). -/

namespace Sys2Proof

variable {u fc : Byte} {f p : List Byte} {i : Instr}

/-! ## Payloads -/

theorem decodeRq8_payload {r : Rq8} (h : r.wf = true) : decodeRq8 r.payload = r := by
  cases r with
  | fields a v => simp [Rq8.payload, decodeRq8]
  | missized p =>
    match p, h with
    | [], _ | [_], _ | [_, _], _ | [_, _, _], _ => rfl
    | _ :: _ :: _ :: _ :: _ :: _, _ => rfl

theorem decodeRqm_payload {r : Rqm} (h : r.wf = true) : decodeRqm r.payload = r := by
  cases r with
  | fields a v bc d => simp [Rqm.payload, decodeRqm]
  | short p =>
    match p, h with
    | [], _ | [_], _ | [_, _], _ | [_, _, _], _ | [_, _, _, _], _ => rfl

theorem payload_decodeRq8 (p : List Byte) : (decodeRq8 p).payload = p := by
  match p with
  | [_, _, _, _] => simp [decodeRq8, Rq8.payload]
  | [] | [_] | [_, _] | [_, _, _] | _ :: _ :: _ :: _ :: _ :: _ => rfl

theorem payload_decodeRqm (p : List Byte) : (decodeRqm p).payload = p := by
  match p with
  | _ :: _ :: _ :: _ :: _ :: _ => simp [decodeRqm, Rqm.payload]
  | [] | [_] | [_, _] | [_, _, _] | [_, _, _, _] => rfl

theorem decodeRq8_wf (h : p.length + 4 ≤ maxFrame) : (decodeRq8 p).wf = true := by
  match p with
  | [_, _, _, _] => rfl
  | [] | [_] | [_, _] | [_, _, _] => rfl
  | _ :: _ :: _ :: _ :: _ :: _ => simpa [decodeRq8, Rq8.wf] using h

theorem decodeRqm_wf (h : p.length + 4 ≤ maxFrame) : (decodeRqm p).wf = true := by
  match p with
  | _ :: _ :: _ :: _ :: _ :: _ => simpa [decodeRqm, Rqm.wf] using h
  | [] | [_] | [_, _] | [_, _, _] | [_, _, _, _] => rfl

/-! ## Requests -/

/-- The function-code map reads every well-formed request back from its three parts. -/
theorem decodeRequest_of_wf (h : i.wf = true) : decodeRequest i.unit i.fc i.payload = .ok i := by
  cases i with
  | rc u r => exact congrArg (Except.ok ∘ Instr.rc u) (decodeRq8_payload h)
  | rdi u r => exact congrArg (Except.ok ∘ Instr.rdi u) (decodeRq8_payload h)
  | rhr u r => exact congrArg (Except.ok ∘ Instr.rhr u) (decodeRq8_payload h)
  | rir u r => exact congrArg (Except.ok ∘ Instr.rir u) (decodeRq8_payload h)
  | wsc u r => exact congrArg (Except.ok ∘ Instr.wsc u) (decodeRq8_payload h)
  | wsr u r => exact congrArg (Except.ok ∘ Instr.wsr u) (decodeRq8_payload h)
  | wmc u r => exact congrArg (Except.ok ∘ Instr.wmc u) (decodeRqm_payload h)
  | wmr u r => exact congrArg (Except.ok ∘ Instr.wmr u) (decodeRqm_payload h)

/-- A decoded request has the function code and the payload it was decoded from. -/
theorem fc_payload_of_decodeRequest_ok (h : decodeRequest u fc p = .ok i) : i.fc = fc ∧ i.payload = p := by
  unfold decodeRequest at h
  split_ifs at h with h1 h2 h3 h4 h5 h6 h15 h16 <;> cases h
  · exact ⟨h1.symm, payload_decodeRq8 p⟩
  · exact ⟨h2.symm, payload_decodeRq8 p⟩
  · exact ⟨h3.symm, payload_decodeRq8 p⟩
  · exact ⟨h4.symm, payload_decodeRq8 p⟩
  · exact ⟨h5.symm, payload_decodeRq8 p⟩
  · exact ⟨h6.symm, payload_decodeRq8 p⟩
  · exact ⟨h15.symm, payload_decodeRqm p⟩
  · exact ⟨h16.symm, payload_decodeRqm p⟩

theorem wf_of_decodeRequest_ok (h : decodeRequest u fc p = .ok i) (hp : p.length + 4 ≤ maxFrame) : i.wf = true := by
  have h8 := decodeRq8_wf hp
  have hm := decodeRqm_wf hp
  unfold decodeRequest at h
  split_ifs at h <;> cases h <;> assumption

/-- The function-code map rejects exactly the codes that are none of the eight. -/
theorem decodeRequest_eq_error {e : Reject} : decodeRequest u fc p = .error e ↔
    fc ∉ [0x01#8, 0x02#8, 0x03#8, 0x04#8, 0x05#8, 0x06#8, 0x0F#8, 0x10#8] ∧ e = .unrecognizedFunction u fc := by
  constructor
  · intro h
    unfold decodeRequest at h
    split_ifs at h with h1 h2 h3 h4 h5 h6 h15 h16
    cases h
    exact ⟨by simp [h1, h2, h3, h4, h5, h6, h15, h16], rfl⟩
  · rintro ⟨hfc, rfl⟩
    exact Machine.decodeRequest_unrecognized hfc u p

/-! ## Frames -/

/-- A frame of at least four bytes whose CRC matches is made of its unit byte, its function code, its payload and their CRC
(30_encoding.md R90). -/
theorem withCrc_parts (hlen : 4 ≤ f.length) (hcrc : crcOk f = true) :
    withCrc (byteAt f 0 :: byteAt f 1 :: framePayload f) = f := by
  have hbody : byteAt f 0 :: byteAt f 1 :: framePayload f = f.take (f.length - 2) := by
    match f, hlen with
    | a :: b :: c :: d :: r, _ => simp [byteAt, framePayload]
  have hfield : crcField (f.take (f.length - 2)) = f.drop (f.length - 2) := by
    rw [crcField, crcOk_eq_true_iff.1 hcrc, lo_receivedCrc, hi_receivedCrc]
    refine List.ext_getElem (by simp; omega) fun k hk _ => ?_
    have hk2 : k < 2 := hk
    obtain rfl | rfl : k = 0 ∨ k = 1 := by omega
    · simp [byteAt, show f.length - 2 < f.length by omega]
    · simp [byteAt, show f.length - 1 < f.length by omega, show f.length - 2 + 1 = f.length - 1 by omega]
  rw [hbody, withCrc, hfield, List.take_append_drop]

theorem framePayload_length (hlen : 4 ≤ f.length) : (framePayload f).length + 4 = f.length := by
  simp [framePayload]
  omega

theorem decode_of_short (h : f.length < 4) : decode f = .error .tooShort := if_pos h

theorem decode_of_badCrc (hlen : 4 ≤ f.length) (hcrc : crcOk f = false) : decode f = .error .badCrc := by
  rw [decode, if_neg (show ¬ f.length < minFrame from Nat.not_lt.2 hlen), hcrc]
  rfl

theorem decode_of_crcOk (hlen : 4 ≤ f.length) (hcrc : crcOk f = true) : decode f = decodeBody f := by
  rw [decode, if_neg (show ¬ f.length < minFrame from Nat.not_lt.2 hlen), hcrc]
  rfl

/-- The three ways a frame is read: too short, a CRC that does not match, or by its function code. -/
theorem decode_cases (f : List Byte) :
    (f.length < 4 ∧ decode f = .error .tooShort) ∨
    (4 ≤ f.length ∧ crcOk f = false ∧ decode f = .error .badCrc) ∨
    (4 ≤ f.length ∧ crcOk f = true ∧ decode f = decodeBody f) := by
  by_cases hlen : f.length < 4
  · exact .inl ⟨hlen, decode_of_short hlen⟩
  · have hlen : 4 ≤ f.length := Nat.le_of_not_lt hlen
    cases hcrc : crcOk f with
    | false => exact .inr (.inl ⟨hlen, rfl, decode_of_badCrc hlen hcrc⟩)
    | true => exact .inr (.inr ⟨hlen, rfl, decode_of_crcOk hlen hcrc⟩)

/-- The frames that decode are those that are long enough, whose CRC matches and whose function code is in the map. -/
theorem decode_eq_ok : decode f = .ok i ↔ 4 ≤ f.length ∧ crcOk f = true ∧ decodeBody f = .ok i := by
  rcases decode_cases f with ⟨hlen, hd⟩ | ⟨hlen, hcrc, hd⟩ | ⟨hlen, hcrc, hd⟩
  · simp [hd, Nat.not_le.2 hlen]
  · simp [hd, hcrc]
  · simp [hd, hlen, hcrc]

end Sys2Proof

namespace Sys2Proof.Proofs

open Sys2Proof.Machine

/-- Settles O2: a frame built from its parts is decoded by the function-code map, which reads each of the eight requests
back from its parts. -/
theorem decodeOfEncode : Obligations.DecodeOfEncode := by
  unfold Obligations.DecodeOfEncode
  intro i hwf
  rw [encode, decode_withCrc]
  exact decodeRequest_of_wf hwf

/-- Settles O3: the request has the parts of the frame, and the frame is what its parts and their CRC make. -/
theorem encodeOfDecode : Obligations.EncodeOfDecode := by
  unfold Obligations.EncodeOfDecode
  intro f i hmax hdecode
  obtain ⟨hlen, hcrc, hbody⟩ := decode_eq_ok.1 hdecode
  obtain ⟨hfc, hpayload⟩ := fc_payload_of_decodeRequest_ok hbody
  refine ⟨?_, wf_of_decodeRequest_ok hbody (by rwa [framePayload_length hlen])⟩
  rw [encode, unit_of_decodeRequest_ok hbody, hfc, hpayload, withCrc_parts hlen hcrc]

/-- Settles O4: the length check, the CRC check and the function-code map, in this order, each reject under their own
name. -/
theorem decodeRejectsByName : Obligations.DecodeRejectsByName := by
  unfold Obligations.DecodeRejectsByName
  intro f
  rcases decode_cases f with ⟨hlen, hd⟩ | ⟨hlen, hcrc, hd⟩ | ⟨hlen, hcrc, hd⟩
  · simp [hd, hlen, Nat.not_le.2 hlen]
  · simp [hd, hlen, hcrc]
  · simp only [hd, decodeBody, decodeRequest_eq_error, hlen, hcrc, Nat.not_lt.2 hlen]
    refine ⟨by simp, by simp, fun u fc => ?_⟩
    rw [Reject.unrecognizedFunction.injEq]
    constructor
    · rintro ⟨hfc, rfl, rfl⟩
      exact ⟨trivial, trivial, rfl, rfl, hfc⟩
    · rintro ⟨-, -, rfl, rfl, hfc⟩
      exact ⟨hfc, rfl, rfl⟩

/-- Settles O1: the decoder evaluates each frame. -/
theorem sampleFramesDecode : Obligations.SampleFramesDecode := by
  unfold Obligations.SampleFramesDecode
  decide +kernel

/-- Settles O25: the verdict is the first check that fails, and the accepted frames are those for this unit. -/
theorem validatorVerdict : Obligations.ValidatorVerdict := by
  unfold Obligations.ValidatorVerdict
  intro unitId f
  refine ⟨fun hlen => if_pos hlen, fun hlen hcrc => validate_of_badCrc hlen hcrc unitId, fun hlen hcrc => ⟨?_, ?_, ?_, ?_⟩⟩
  · intro hunit
    exact validate_eq_accept.2 ⟨hlen, hcrc, by rw [hunit]; rfl, .inl (by rw [hunit]; rfl)⟩
  · intro hunit hwild
    exact validate_eq_accept.2 ⟨hlen, hcrc, by simp [bcast, hunit], .inr (.inl hwild)⟩
  · intro hunit _ hown
    exact validate_eq_accept.2 ⟨hlen, hcrc, by simp [bcast, hunit], .inr (.inr hown)⟩
  · intro hunit hwild hother
    simp [validate, minFrame, Nat.not_lt.2 hlen, hcrc, bcast, noId, hunit, hwild, hother]

end Sys2Proof.Proofs
end

section
/-! PROOFS. The bit-serial CRC (48_crc16.md R252) and the CRC of a frame with its own CRC field (R253). -/

namespace Sys2Proof

/-! ## The serial register -/

/-- A shift of the register with further bits xored in is a serial step on the lowest of them; the others move down. -/
theorem crcShift_xor (c w : Word) : crcShift (c ^^^ w) = crcSerialBit c (w.getLsbD 0) ^^^ (w >>> 1) := by
  have hshift : (c ^^^ w) >>> 1 = (c >>> 1) ^^^ (w >>> 1) := BitVec.ushiftRight_xor_distrib c w 1
  unfold crcShift crcSerialBit
  rw [BitVec.getLsbD_xor, hshift]
  split
  · rw [BitVec.xor_assoc, BitVec.xor_assoc, BitVec.xor_comm (w >>> 1)]
  · rfl

/-- `n` shifts with the `n` bits of `w` xored in at once are the serial steps on those bits, least significant first. -/
theorem crcShifts_xor (n : Nat) (c w : Word) (hw : w.toNat < 2 ^ n) :
    crcShifts n (c ^^^ w) = ((List.range n).map w.getLsbD).foldl crcSerialBit c := by
  induction n generalizing c w with
  | zero =>
    have hzero : w = 0#16 := BitVec.eq_of_toNat_eq (by simpa using hw)
    simp [hzero, crcShifts]
  | succ n ih =>
    have hrest : (w >>> 1).toNat < 2 ^ n := by
      rw [BitVec.toNat_ushiftRight, Nat.shiftRight_eq_div_pow]
      omega
    have hbits : (w >>> 1).getLsbD = w.getLsbD ∘ Nat.succ := by
      funext i
      simp [Nat.add_comm]
    rw [crcShifts, crcShift_xor, ih _ _ hrest, hbits, List.range_succ_eq_map, List.map_cons, List.map_map, List.foldl_cons]

theorem crcSerialByte_eq_crcByte (c : Word) (b : Byte) : crcSerialByte c b = crcByte c b := by
  have hbyte : (b.setWidth 16).toNat < 2 ^ 8 := by
    simp only [BitVec.toNat_setWidth]
    omega
  have hbits : (List.range 8).map (b.setWidth 16).getLsbD = (List.range 8).map b.getLsbD :=
    List.map_congr_left fun i hi => by
      have : i < 16 := Nat.lt_trans (List.mem_range.1 hi) (by decide)
      simp [this]
  rw [crcByte, crcShifts_xor 8 c _ hbyte, hbits, crcSerialByte]

/-! ## The CRC field -/

/-- `n` shifts of a register whose low `n` bits are 0 feed nothing back. -/
theorem crcShifts_of_low_zero (n : Nat) (c : Word) (h : ∀ i < n, c.getLsbD i = false) : crcShifts n c = c >>> n := by
  induction n generalizing c with
  | zero => simp [crcShifts]
  | succ n ih =>
    have hshift : crcShift c = c >>> 1 := if_neg (by rw [h 0 (Nat.succ_pos n)]; exact Bool.false_ne_true)
    have hrest : ∀ i < n, (c >>> 1).getLsbD i = false := fun i hi => by
      rw [BitVec.getLsbD_ushiftRight, Nat.add_comm]
      exact h _ (Nat.succ_lt_succ hi)
    rw [crcShifts, hshift, ih _ hrest, ← BitVec.shiftRight_add, Nat.add_comm]

/-- The low byte of the register itself clears the low half: the register moves down by a byte. -/
theorem crcByte_lo (c : Word) : crcByte c (lo c) = c >>> 8 := by
  have hlow : ∀ i < 8, (c ^^^ (lo c).setWidth 16).getLsbD i = false := fun i hi => by
    simp [lo, hi, show i < 16 by omega]
  have hhigh : (c ^^^ (lo c).setWidth 16) >>> 8 = c >>> 8 := by
    ext i hi
    simp [lo]
  rw [crcByte, crcShifts_of_low_zero 8 _ hlow, hhigh]

/-- What is left of the register is its high byte, which cancels it. -/
theorem crcByte_hi (c : Word) : crcByte (c >>> 8) (hi c) = 0x0000#16 := by
  have hcancel : (hi c).setWidth 16 = c >>> 8 := by
    ext i hlt
    by_cases h8 : i < 8
    · simp [hi, h8]
    · simp [hi, h8, show 16 ≤ 8 + i by omega]
  rw [crcByte, hcancel, BitVec.xor_self, crcShifts_of_low_zero 8 _ (fun i _ => BitVec.getLsbD_zero)]
  rfl

end Sys2Proof

namespace Sys2Proof.Proofs

/-- Settles O5: byte by byte, the serial register is the register of record. -/
theorem crcSerialAgrees : Obligations.CrcSerialAgrees := by
  unfold Obligations.CrcSerialAgrees
  intro s
  have hbyte : crcSerialByte = crcByte := funext fun c => funext fun b => crcSerialByte_eq_crcByte c b
  rw [crcSerial, crc16, hbyte]

/-- Settles O6: the low CRC byte moves the register down by a byte, and the high CRC byte then cancels what is left. -/
theorem crcOfWholeFrameIsZero : Obligations.CrcOfWholeFrameIsZero := by
  unfold Obligations.CrcOfWholeFrameIsZero
  intro s
  have happend : crc16 (s ++ [lo (crc16 s), hi (crc16 s)]) = crcByte (crcByte (crc16 s) (lo (crc16 s))) (hi (crc16 s)) := by
    simp [crc16]
  rw [happend, crcByte_lo, crcByte_hi]

end Sys2Proof.Proofs
end

section
/-! PROOFS. The timing calculator (49_timing_calculator.md): the timeouts as least values, and the registers that hold
them. -/

namespace Sys2Proof.Machine

/-- The calculator's rounded quotient is Mathlib's. -/
theorem ceilDiv_le_iff {a b n : Nat} (hb : 0 < b) : ceilDiv a b ≤ n ↔ a ≤ b * n :=
  ceilDiv_le_iff_le_mul hb

theorem ceilDiv_mono {a a' : Nat} (h : a ≤ a') (b : Nat) : ceilDiv a b ≤ ceilDiv a' b :=
  Nat.div_le_div_right (by omega)

theorem charTimeout_le_frameTimeout {c : Cfg} (h : c.t15Floor ≤ c.t35Floor) : charTimeout c ≤ frameTimeout c := by
  have hchars : 3 * charBits c * c.clkHz.toNat ≤ 7 * charBits c * c.clkHz.toNat := by gcongr; omega
  exact max_le_max (ceilDiv_mono hchars _) h

/-- What a legal record says of the timeouts. -/
theorem timeouts_of_legalCfg {c : Cfg} (h : legalCfg c = true) :
    1 ≤ c.t15Floor ∧ c.t15Floor ≤ c.t35Floor ∧ frameTimeout c < 2 ^ 32 := by
  simp only [legalCfg, Bool.and_eq_true, decide_eq_true_eq] at h
  tauto

end Sys2Proof.Machine

namespace Sys2Proof.Proofs

open Sys2Proof.Machine

/-- Settles O8: a rounded-up quotient is at most `n` exactly when the dividend fits `n` divisors, and a maximum exactly when
both its parts are. -/
theorem timeoutsAreLeastNotShorter : Obligations.TimeoutsAreLeastNotShorter := by
  unfold Obligations.TimeoutsAreLeastNotShorter
  intro c n hbaud
  have hdivisor : 0 < 2 * c.baud.toNat := by omega
  constructor
  · rw [charTimeout, max_le_iff, ceilDiv_le_iff hdivisor, charBits]
  · rw [frameTimeout, max_le_iff, ceilDiv_le_iff hdivisor, charBits]

/-- Settles O9: a legal record's frame timeout fits 32 bits, and its character timeout lies between its floor and the frame
timeout. -/
theorem timeoutRegistersOrdered : Obligations.TimeoutRegistersOrdered := by
  unfold Obligations.TimeoutRegistersOrdered
  intro s ⟨h15, h35⟩ hlegal
  obtain ⟨hfloor, hfloors, hfits⟩ := timeouts_of_legalCfg (Bool.and_eq_true_iff.1 hlegal).2
  have hle := charTimeout_le_frameTimeout hfloors
  have hchar : s.t15.toNat = charTimeout s.cfg := by
    rw [h15, BitVec.toNat_ofNat, Nat.mod_eq_of_lt (Nat.lt_of_le_of_lt hle hfits)]
  have hframe : s.t35.toNat = frameTimeout s.cfg := by rw [h35, BitVec.toNat_ofNat, Nat.mod_eq_of_lt hfits]
  have hone : 1 ≤ charTimeout s.cfg := Nat.le_trans hfloor (Nat.le_max_right _ _)
  exact ⟨hchar, hframe, by rwa [hchar], by rwa [hchar, hframe]⟩

end Sys2Proof.Proofs
end

section
/-! PROOFS. The other agents' part of a tick (00_scope.md R7, 20_memory.md R77) and the reset tick (70_reset_and_hazards.md
R300, R305). -/

namespace Sys2Proof.Machine

open Sys2Proof.Claims

variable {s m : State}

/-! ## The application's writes -/

theorem lastBit_cons (sp : BitSpace) (a : Nat) (w : AppWrite) (ws : List AppWrite) :
    lastBit sp a (w :: ws) = (lastBit sp a ws).or (lastBit sp a [w]) := by
  simp only [lastBit, List.reverse_cons, List.findSome?_append, List.reverse_nil, List.nil_append]

theorem lastWord_cons (sp : WordSpace) (a : Nat) (w : AppWrite) (ws : List AppWrite) :
    lastWord sp a (w :: ws) = (lastWord sp a ws).or (lastWord sp a [w]) := by
  simp only [lastWord, List.reverse_cons, List.findSome?_append, List.reverse_nil, List.nil_append]

theorem applyAppWrite_wf (hwf : s.memoryWf = true) (w : AppWrite) : (applyAppWrite w s).memoryWf = true := by
  cases w with
  | bit sp a v => exact bitsWrite_wf hwf sp _ _
  | word sp a v => exact wordsWrite_wf hwf sp _ _

/-- One write is seen at its element and nowhere else. -/
theorem bitAt_applyAppWrite (hwf : s.memoryWf = true) (w : AppWrite) (sp : BitSpace) (a : Nat) :
    (applyAppWrite w s).bitAt sp a = (lastBit sp a [w]).getD (s.bitAt sp a) := by
  cases w with
  | bit sq b v =>
    rw [applyAppWrite, bitAt_bitsWrite hwf]
    by_cases h : sq = sp ∧ b.toNat = a
    · obtain ⟨rfl, rfl⟩ := h
      simp [lastBit]
    · have hmiss : ¬ (sp = sq ∧ b.toNat ≤ a ∧ a < b.toNat + [v].length) := by
        rintro ⟨rfl, hle, hlt⟩
        exact h ⟨rfl, by simp at hlt; omega⟩
      rw [if_neg hmiss]
      simp [lastBit, h]
  | word sq b v => cases sq <;> rfl

theorem wordAt_applyAppWrite (hwf : s.memoryWf = true) (w : AppWrite) (sp : WordSpace) (a : Nat) :
    (applyAppWrite w s).wordAt sp a = (lastWord sp a [w]).getD (s.wordAt sp a) := by
  cases w with
  | word sq b v =>
    rw [applyAppWrite, wordAt_wordsWrite hwf]
    by_cases h : sq = sp ∧ b.toNat = a
    · obtain ⟨rfl, rfl⟩ := h
      simp [lastWord]
    · have hmiss : ¬ (sp = sq ∧ b.toNat ≤ a ∧ a < b.toNat + [v].length) := by
        rintro ⟨rfl, hle, hlt⟩
        exact h ⟨rfl, by simp at hlt; omega⟩
      rw [if_neg hmiss]
      simp [lastWord, h]
  | bit sq b v => cases sq <;> rfl

/-- Every bit element holds what the last write to it stored, or what it held. -/
theorem bitAt_application (hwf : s.memoryWf = true) (ws : List AppWrite) (sp : BitSpace) (a : Nat) :
    (application ws s).bitAt sp a = (lastBit sp a ws).getD (s.bitAt sp a) := by
  induction ws generalizing s with
  | nil => rfl
  | cons w ws ih =>
    rw [application, ih (applyAppWrite_wf hwf w), bitAt_applyAppWrite hwf, lastBit_cons sp a w ws, Option.getD_or]

/-- Every word element holds what the last write to it stored, or what it held. -/
theorem wordAt_application (hwf : s.memoryWf = true) (ws : List AppWrite) (sp : WordSpace) (a : Nat) :
    (application ws s).wordAt sp a = (lastWord sp a ws).getD (s.wordAt sp a) := by
  induction ws generalizing s with
  | nil => rfl
  | cons w ws ih =>
    rw [application, ih (applyAppWrite_wf hwf w), wordAt_applyAppWrite hwf, lastWord_cons sp a w ws, Option.getD_or]

/-- A tick in which the application writes nothing leaves the tables as they are. -/
theorem beginTick_tables_of_noApp {i : TickInput} (h : i.app = []) :
    (beginTick i s).coil = s.coil ∧ (beginTick i s).di = s.di ∧ (beginTick i s).hr = s.hr ∧ (beginTick i s).ir = s.ir := by
  rw [beginTick_noApp h]
  exact ⟨rfl, rfl, rfl, rfl⟩

theorem bitAt_beginTick (hwf : s.memoryWf = true) (i : TickInput) (sp : BitSpace) (a : Nat) :
    (beginTick i s).bitAt sp a = (lastBit sp a i.app).getD (s.bitAt sp a) := by
  have hseen := bitAt_application (s := newTick (transmitTransport i.txLeft (receiveTransport i.arrivals s))) hwf i.app sp a
  cases sp <;> exact hseen

theorem wordAt_beginTick (hwf : s.memoryWf = true) (i : TickInput) (sp : WordSpace) (a : Nat) :
    (beginTick i s).wordAt sp a = (lastWord sp a i.app).getD (s.wordAt sp a) := by
  have hseen := wordAt_application (s := newTick (transmitTransport i.txLeft (receiveTransport i.arrivals s))) hwf i.app sp a
  cases sp <;> exact hseen

/-! ## Reset and refusal -/

/-- `rst` = 1 overrides everything (60_exceptions.md R275). -/
theorem step_of_reset {c : Cfg} (h : s.input.rst = some c) : step s = .next (resetTick c (beginTick s.input s)) := by
  rw [step, engineTick, engineStep, h]

theorem bitAt_resetTick (c : Cfg) (s : State) (sp : BitSpace) (a : Nat) : (resetTick c s).bitAt sp a = s.bitAt sp a := by
  cases sp <;> rfl

theorem wordAt_resetTick (c : Cfg) (s : State) (sp : WordSpace) (a : Nat) :
    (resetTick c s).wordAt sp a = s.wordAt sp a := by
  cases sp <;> rfl

end Sys2Proof.Machine

namespace Sys2Proof.Proofs

open Sys2Proof.Machine

/-- Settles O10: the other agents change what `beginTick_eq` says, and the step is the engine's from there. -/
theorem otherAgentsActFirst : Obligations.OtherAgentsActFirst := by
  unfold Obligations.OtherAgentsActFirst
  intro s i
  obtain ⟨hchanged, hwf⟩ := beginTick_eq i s
  refine ⟨beginTick i s, rfl, hchanged, hwf, ?_⟩
  rintro rfl
  rfl

/-- Settles O11: the application's writes are applied in order, each seen at its own element. -/
theorem applicationWriteIsSeen : Obligations.ApplicationWriteIsSeen := by
  unfold Obligations.ApplicationWriteIsSeen
  intro s i
  exact ⟨beginTick i s, rfl, beginTick_tables_of_noApp, fun hwf => ⟨bitAt_beginTick hwf i, wordAt_beginTick hwf i⟩⟩

/-- Settles O59: the reset tick samples `cfg` after the application's writes and touches no table. -/
theorem tablesAreFilledInAnyOrderWithReset : Obligations.TablesAreFilledInAnyOrderWithReset := by
  unfold Obligations.TablesAreFilledInAnyOrderWithReset
  intro s c hrst
  refine ⟨_, step_of_reset hrst, rfl, beginTick_tables_of_noApp, fun hwf => ⟨fun sp a => ?_, fun sp a => ?_⟩⟩
  · rw [bitAt_resetTick, bitAt_beginTick hwf]
  · rw [wordAt_resetTick, wordAt_beginTick hwf]

/-- Settles O12: the step is the reset tick at the state the other agents left, with every output port at 0. -/
theorem resetTickResets : Obligations.ResetTickResets := by
  unfold Obligations.ResetTickResets
  rintro s m c rfl hrst
  exact ⟨_, step_of_reset hrst, rfl, rfl, rfl, rfl, rfl, rfl, rfl, rfl, rfl, rfl, rfl, rfl, beginTick_out s.input s,
    Bool.and_false _, rfl, rfl, rfl, rfl, rfl, rfl, rfl⟩

/-- Settles O14: without a reset the engine looks at the configuration before its phase. -/
theorem illegalConfigurationIsRefused : Obligations.IllegalConfigurationIsRefused := by
  unfold Obligations.IllegalConfigurationIsRefused
  rintro s m rfl hrst hillegal
  rw [step, engineTick, engineStep, hrst, hillegal]
  rfl

end Sys2Proof.Proofs
end

section
/-! PROOFS. The reads of bits and of input registers (43_read_bits.md, 44_read_registers.md R201): packed bits in the reply
(30_encoding.md R102), and the normal end. -/

namespace Sys2Proof

/-! ## Packed bits -/

theorem testBit_bitsValue (bs : List Bool) (j : Nat) : (bitsValue bs).testBit j = bs.getD j false := by
  induction bs generalizing j with
  | nil => simp [bitsValue]
  | cons b bs ih =>
    cases j with
    | zero => cases b <;> simp [bitsValue, Nat.testBit_zero]
    | succ j =>
      have hhalf : (b.toNat + 2 * bitsValue bs) / 2 = bitsValue bs := by cases b <;> simp; omega
      rw [bitsValue, Nat.testBit_succ, hhalf, ih, List.getD_cons_succ]

/-- Bit `j` of data byte `k` is the element with offset `8k + j`, and 0 above the last element. -/
theorem getLsbD_packByte (bits : List Bool) (k : Nat) {j : Nat} (hj : j < 8) :
    (packByte bits k).getLsbD j = bits.getD (8 * k + j) false := by
  rw [packByte, BitVec.getLsbD_ofNat, decide_eq_true hj, Bool.true_and, testBit_bitsValue]
  simp [hj]

/-- Packing is undone by reading bit `i mod 8` of byte `i div 8`; the padding reads 0. -/
theorem packedBit_packBits (bits : List Bool) {i : Nat} (hi : i < 8 * (packBits bits).length) :
    packedBit (packBits bits) i = bits.getD i false := by
  have hbyte : i / 8 < bitByteCount bits.length := by
    rw [packBits_length] at hi
    omega
  have hget : (packBits bits).getD (i / 8) 0#8 = packByte bits (i / 8) := by simp [packBits, hbyte]
  rw [packedBit, hget, getLsbD_packByte _ _ (Nat.mod_lt i (by decide)), Nat.div_add_mod]

end Sys2Proof

namespace Sys2Proof.Machine

open Sys2Proof.Claims

variable {s : State} {u fc : Byte} {a v : Word}

theorem bitsRead_getD (sp : BitSpace) (a n i : Nat) :
    (s.bitsRead sp a n).getD i false = (decide (i < n) && s.bitAt sp (a + i)) := by
  by_cases hi : i < n
  · rw [List.getD_eq_getElem?_getD, State.bitsRead, cellsRead_getElem? _ _ a n i hi]
    simp [hi, State.bitAt]
  · rw [List.getD_eq_default _ _ (by simpa using hi)]
    simp [hi]

/-- A bit read whose checks pass ends normally with the bits it reads. -/
theorem reaches_readBitsRequest_of_ok {sp : BitSpace} {r : Rq8}
    (h : checkRq8 (s.bitCount sp) quantityV (quantityOk 2000) r = .ok (a, v)) :
    Reaches (.next (readBitsRequest sp u fc r s)) (readEnds u fc a v (bitReply (s.bitsRead sp a.toNat v.toNat)) s) := by
  rw [readBitsRequest, h]
  exact reaches_complete_pre u fc _ a v s

/-- A bit read with its range in bounds and its quantity within the limit replies with `ceil(V / 8)` and the packed bits
(43_read_bits.md R190, R191). -/
theorem reaches_readBitsRequest_of_inBounds {sp : BitSpace} (hlo : 1 ≤ v.toNat) (hhi : v.toNat ≤ 2000)
    (hin : a.toNat + v.toNat ≤ s.bitCount sp) :
    ∃ d : List Byte, d.length = (v.toNat + 7) / 8 ∧
      (∀ i, i < 8 * d.length →
        (d.getD (i / 8) 0#8).getLsbD (i % 8) = (decide (i < v.toNat) && s.bitAt sp (a.toNat + i))) ∧
      Reaches (.next (readBitsRequest sp u fc (.fields a v) s))
        (readEnds u fc a v (BitVec.ofNat 8 d.length :: d) s) := by
  have hbound : s.bitCount sp ≠ 0 := by omega
  have hcheck : checkRq8 (s.bitCount sp) quantityV (quantityOk 2000) (.fields a v) = .ok (a, v) :=
    checkRq8_eq_ok.2 ⟨rfl, hbound, hin, quantityOk_eq_true_iff.2 ⟨hlo, hhi⟩⟩
  have hreply := reaches_readBitsRequest_of_ok (u := u) (fc := fc) hcheck
  rw [bitReply, ← packBits_length] at hreply
  refine ⟨packBits (s.bitsRead sp a.toNat v.toNat), ?_, fun i hi => ?_, hreply⟩
  · rw [packBits_length, bitsRead_length, bitByteCount]
  · rw [← bitsRead_getD]
    exact packedBit_packBits _ hi

end Sys2Proof.Machine

namespace Sys2Proof.Proofs

open Sys2Proof.Machine

/-- Settles O29: a read of bits in bounds, in the space COIL. -/
theorem readCoilsReplies : Obligations.ReadCoilsReplies := by
  unfold Obligations.ReadCoilsReplies
  intro s u a v
  exact reaches_readBitsRequest_of_inBounds (sp := .coil)

/-- Settles O30: a read of bits in bounds, in the space DI. -/
theorem readDiscreteInputsReplies : Obligations.ReadDiscreteInputsReplies := by
  unfold Obligations.ReadDiscreteInputsReplies
  intro s u a v
  exact reaches_readBitsRequest_of_inBounds (sp := .di)

/-- Settles O32: a read of words in bounds, in the space IR. -/
theorem readInputRegistersReplies : Obligations.ReadInputRegistersReplies := by
  unfold Obligations.ReadInputRegistersReplies
  intro s u a v hlo hhi hin
  exact reaches_readWordsRequest_of_inBounds (sp := .ir) hin hlo hhi

end Sys2Proof.Proofs
end

section
/-! PROOFS. The four writes (45_write_single.md, 46_write_multiple.md): the values a request carries, the elements they
reach, and the normal end of a write. -/

namespace Sys2Proof

theorem unpackBits_getD (n : Nat) (d : List Byte) {i : Nat} (hi : i < n) (b : Bool) :
    (unpackBits n d).getD i b = packedBit d i := by
  simp [unpackBits, hi]

/-- Word `i` of the data is bytes `2i` and `2i + 1`, high byte first (30_encoding.md R103). -/
theorem bytesWords_getD (w : Word) {n : Nat} (d : List Byte) (hd : d.length = 2 * n) {i : Nat} (hi : i < n) :
    (bytesWords d).getD i w = be16 (d.getD (2 * i) 0#8) (d.getD (2 * i + 1) 0#8) := by
  induction n generalizing d i with
  | zero => omega
  | succ n ih =>
    match d, hd with
    | h :: l :: d, hd =>
      cases i with
      | zero => rfl
      | succ i => exact ih d (by simp at hd; omega) (by omega)
    | [_], hd => simp at hd; omega

end Sys2Proof

namespace Sys2Proof.Machine

open Sys2Proof.Claims

variable {s : State} {u fc bc : Byte} {a v q : Word} {d : List Byte}

/-- The hook of a write is due at the release, when there is one (42_dispatcher.md R178). -/
theorem notify_post (k : Hook) (s : State) :
    notify .post k s = { s with pendHook := if s.cfg.hasHook then some k else s.pendHook } := by
  unfold notify
  split <;> rfl

theorem bcast_eq_false (hu : u ≠ 0#8) : bcast u = false := Bool.eq_false_iff.2 (mt bcast_eq_true_iff.1 hu)

/-- The model's normal end of a write is the one the claims speak of. -/
theorem reaches_complete_post (u fc : Byte) (a v q : Word) (s : State) :
    Reaches (.next (complete u fc (writeReply a v) .post ⟨fc, a, q⟩ s)) (writeEnds u fc a v q s) := by
  by_cases hu : u = 0#8
  · rw [complete_bcast (bcast_eq_true_iff.2 hu), writeEnds, if_pos hu]
    exact reaches_next (silently (.bcastOk fc) s)
  · rw [complete_unicast (bcast_eq_false hu), notify_post, writeEnds, if_neg hu]
    exact reaches_of_filled rfl (s.txBuf.drop 8) rfl

/-! ## Passing the checks -/

theorem checkRqm_of_inBounds {count limit : Nat} {bf : Word → Nat} (hlo : 1 ≤ v.toNat) (hhi : v.toNat ≤ limit)
    (hin : a.toNat + v.toNat ≤ count) (hbc : bc.toNat = bf v) (hd : d.length = bc.toNat) :
    checkRqm count limit bf (.fields a v bc d) = .ok (a, v, d) :=
  checkRqm_eq_ok.2 ⟨bc, rfl, by omega, hin, quantityOk_eq_true_iff.2 ⟨hlo, hhi⟩, hbc, hd.trans hbc⟩

theorem checkRq8_one_of_inBounds {count : Nat} {ok : Word → Bool} (hin : a.toNat < count) (hok : ok v = true) :
    checkRq8 count quantityOne ok (.fields a v) = .ok (a, v) :=
  checkRq8_eq_ok.2 ⟨rfl, Nat.ne_of_gt (Nat.lt_of_le_of_lt (Nat.zero_le _) hin), hin, hok⟩

/-! ## The element of a single write -/

theorem bitAt_bitsWrite_one (hwf : s.memoryWf = true) (sp : BitSpace) (a b : Nat) (x : Bool) :
    (s.bitsWrite sp a [x]).bitAt sp b = if b = a then x else s.bitAt sp b := by
  rw [bitAt_bitsWrite hwf]
  by_cases hb : b = a
  · simp [hb]
  · rw [if_neg hb, if_neg (by simp; omega)]

theorem wordAt_wordsWrite_one (hwf : s.memoryWf = true) (sp : WordSpace) (a b : Nat) (x : Word) :
    (s.wordsWrite sp a [x]).wordAt sp b = if b = a then x else s.wordAt sp b := by
  rw [wordAt_wordsWrite hwf]
  by_cases hb : b = a
  · simp [hb]
  · rw [if_neg hb, if_neg (by simp; omega)]

/-! ## The elements of a multiple write -/

theorem bitAt_bitsWrite_unpackBits (hwf : s.memoryWf = true) (sp : BitSpace) (a b n : Nat) (d : List Byte) :
    (s.bitsWrite sp a (unpackBits n d)).bitAt sp b =
      if a ≤ b ∧ b < a + n then packedBit d (b - a) else s.bitAt sp b := by
  rw [bitAt_bitsWrite hwf, unpackBits_length]
  by_cases hb : a ≤ b ∧ b < a + n
  · rw [if_pos ⟨rfl, hb⟩, if_pos hb, unpackBits_getD n d (by omega)]
  · rw [if_neg (fun h => hb h.2), if_neg hb]

theorem wordAt_wordsWrite_bytesWords (hwf : s.memoryWf = true) (sp : WordSpace) (a b : Nat) {n : Nat}
    (hd : d.length = 2 * n) :
    (s.wordsWrite sp a (bytesWords d)).wordAt sp b =
      if a ≤ b ∧ b < a + n then be16 (d.getD (2 * (b - a)) 0#8) (d.getD (2 * (b - a) + 1) 0#8) else s.wordAt sp b := by
  rw [wordAt_wordsWrite hwf, bytesWords_length n d hd]
  by_cases hb : a ≤ b ∧ b < a + n
  · rw [if_pos ⟨rfl, hb⟩, if_pos hb, bytesWords_getD _ d hd (by omega)]
  · rw [if_neg (fun h => hb h.2), if_neg hb]

end Sys2Proof.Machine

namespace Sys2Proof.Proofs

open Sys2Proof.Machine

/-- Settles O33: a single write in bounds with one of the two values stores one coil and ends normally. -/
theorem writeSingleCoilWrites : Obligations.WriteSingleCoilWrites := by
  unfold Obligations.WriteSingleCoilWrites
  intro s u a v hwf hv hin
  have hcheck : checkRq8 (s.bitCount .coil) quantityOne coilValueOk (.fields a v) = .ok (a, v) :=
    checkRq8_one_of_inBounds hin (by simpa [coilValueOk] using hv)
  refine ⟨s.bitsWrite .coil a.toNat [v == 0xFF00#16], rfl, fun b => ?_, ?_⟩
  · exact bitAt_bitsWrite_one hwf .coil a.toNat b _
  · rw [exec, execWsc, hcheck]
    exact reaches_complete_post u _ a v 1#16 _

/-- Settles O34: a single write in bounds stores one register, whatever the value, and ends normally. -/
theorem writeSingleRegisterWrites : Obligations.WriteSingleRegisterWrites := by
  unfold Obligations.WriteSingleRegisterWrites
  intro s u a v hwf hin
  have hcheck : checkRq8 (s.wordCount .hr) quantityOne anyValueOk (.fields a v) = .ok (a, v) :=
    checkRq8_one_of_inBounds hin rfl
  refine ⟨s.wordsWrite .hr a.toNat [v], rfl, fun b => ?_, ?_⟩
  · exact wordAt_wordsWrite_one hwf .hr a.toNat b v
  · rw [exec, execWsr, hcheck]
    exact reaches_complete_post u _ a v 1#16 _

/-- Settles O35: a multiple write in bounds stores the bits of its data and ends normally. -/
theorem writeMultipleCoilsWrites : Obligations.WriteMultipleCoilsWrites := by
  unfold Obligations.WriteMultipleCoilsWrites
  intro s u bc a v d hwf hlo hhi hin hbc hd
  have hcheck : checkRqm (s.bitCount .coil) 1968 bytesForBits (.fields a v bc d) = .ok (a, v, d) :=
    checkRqm_of_inBounds hlo hhi hin hbc hd
  refine ⟨s.bitsWrite .coil a.toNat (unpackBits v.toNat d), rfl, fun b => ?_, ?_⟩
  · exact bitAt_bitsWrite_unpackBits hwf .coil a.toNat b v.toNat d
  · rw [exec, execWmc, hcheck]
    exact reaches_complete_post u _ a v v _

/-- Settles O36: a multiple write in bounds stores the words of its data and ends normally. -/
theorem writeMultipleRegistersWrites : Obligations.WriteMultipleRegistersWrites := by
  unfold Obligations.WriteMultipleRegistersWrites
  intro s u bc a v d hwf hlo hhi hin hbc hd
  have hcheck : checkRqm (s.wordCount .hr) 123 bytesForWords (.fields a v bc d) = .ok (a, v, d) :=
    checkRqm_of_inBounds hlo hhi hin hbc hd
  refine ⟨s.wordsWrite .hr a.toNat (bytesWords d), rfl, fun b => ?_, ?_⟩
  · exact wordAt_wordsWrite_bytesWords hwf .hr a.toNat b (hd.trans hbc)
  · rw [exec, execWmr, hcheck]
    exact reaches_complete_post u _ a v v _

end Sys2Proof.Proofs
end

section
/-! PROOFS. The dispatcher's checks K2 to K4 that fail (42_dispatcher.md R172, R174, R176) in all eight handlers. -/

namespace Sys2Proof.Machine

variable {count limit : Nat} {a v : Word} {bc : Byte} {d : List Byte}

/-- A bound table and a frame too short for its fields fail at K2. -/
theorem checkRqm_of_short (hbound : count ≠ 0) (limit : Nat) (bf : Word → Nat) (p : List Byte) :
    checkRqm count limit bf (.short p) = .error .illegalDataValue := by
  simp only [checkRqm, if_neg hbound]

/-- A range that ends above the count fails at K3, whatever the byte count and the data. -/
theorem checkRqm_of_outOfBounds (hbound : count ≠ 0) (hout : count < a.toNat + v.toNat) (limit : Nat) (bf : Word → Nat)
    (bc : Byte) (d : List Byte) : checkRqm count limit bf (.fields a v bc d) = .error .illegalDataAddress := by
  simp only [checkRqm, if_neg hbound, if_pos hout]

/-- An RQM request in bounds whose byte count is not the expected one, or not what came, fails at K4. -/
theorem checkRqm_of_badLength {bf : Word → Nat} (hbound : count ≠ 0) (hin : a.toNat + v.toNat ≤ count)
    (hbad : bc.toNat ≠ bf v ∨ d.length ≠ bc.toNat) (limit : Nat) :
    checkRqm count limit bf (.fields a v bc d) = .error .illegalDataValue := by
  have hfails : (quantityOk limit v && bc.toNat == bf v && d.length == bc.toNat) = false := by
    rcases hbad with h | h <;> simp [h]
  simp only [checkRqm, if_neg hbound, if_neg (Nat.not_lt.2 hin), hfails, Bool.false_eq_true, if_false]

/-- A quantity of 0 that passes K3 fails at K4 (42_dispatcher.md R176). -/
theorem quantityOk_of_zero (hv : v = 0#16) (limit : Nat) : quantityOk limit v = false :=
  quantityOk_eq_false_iff.2 (.inl (by rw [hv]; decide))

theorem inBounds_of_zero (hv : v = 0#16) (ha : a.toNat ≤ count) : a.toNat + v.toNat ≤ count := by
  rw [hv]
  exact ha

theorem checkRq8_of_zero (hbound : count ≠ 0) (hv : v = 0#16) (ha : a.toNat ≤ count) (limit : Nat) :
    checkRq8 count quantityV (quantityOk limit) (.fields a v) = .error .illegalDataValue :=
  checkRq8_of_badValue hbound (inBounds_of_zero hv ha) (quantityOk_of_zero hv limit)

theorem checkRqm_of_zero (hbound : count ≠ 0) (hv : v = 0#16) (ha : a.toNat ≤ count) (limit : Nat) (bf : Word → Nat)
    (bc : Byte) (d : List Byte) : checkRqm count limit bf (.fields a v bc d) = .error .illegalDataValue :=
  checkRqm_of_badQuantity hbound (inBounds_of_zero hv ha) (quantityOk_of_zero hv limit) bf bc d

end Sys2Proof.Machine

namespace Sys2Proof.Proofs

open Sys2Proof.Machine

/-- Settles O38: with the table bound, K2 fails in every handler on a payload without its fields. -/
theorem malformedLengthIsIllegalValue : Obligations.MalformedLengthIsIllegalValue := by
  unfold Obligations.MalformedLengthIsIllegalValue
  intro s u p
  refine ⟨fun hcoil => ⟨?rc, ?wsc, ?wmc⟩, fun hdi => ?rdi, fun hhr => ⟨?rhr, ?wsr, ?wmr⟩, fun hir => ?rir⟩
  case rc => exact reaches_readBitsRequest_of_error (sp := .coil) (checkRq8_of_missized hcoil _ _ p)
  case wsc => exact reaches_execWsc_of_error (checkRq8_of_missized hcoil _ _ p)
  case wmc => exact reaches_execWmc_of_error (checkRqm_of_short hcoil _ _ p)
  case rdi => exact reaches_readBitsRequest_of_error (sp := .di) (checkRq8_of_missized hdi _ _ p)
  case rhr => exact reaches_readWordsRequest_of_error (sp := .hr) (checkRq8_of_missized hhr _ _ p)
  case wsr => exact reaches_execWsr_of_error (checkRq8_of_missized hhr _ _ p)
  case wmr => exact reaches_execWmr_of_error (checkRqm_of_short hhr _ _ p)
  case rir => exact reaches_readWordsRequest_of_error (sp := .ir) (checkRq8_of_missized hir _ _ p)

/-- Settles O39: with the table bound, K3 fails in every handler on a range that ends above the count, and K4 on a quantity
of 0 within it. -/
theorem outOfBoundsIsIllegalAddress : Obligations.OutOfBoundsIsIllegalAddress := by
  unfold Obligations.OutOfBoundsIsIllegalAddress
  intro s u bc a v d
  refine ⟨fun hcoil => ⟨fun hout => ⟨?rc, ?wmc⟩, fun hout => ?wsc, fun hv ha => ⟨?rc_zero, ?wmc_zero⟩⟩,
    fun hdi => ⟨fun hout => ?rdi, fun hv ha => ?rdi_zero⟩,
    fun hhr => ⟨fun hout => ⟨?rhr, ?wmr⟩, fun hout => ?wsr, fun hv ha => ⟨?rhr_zero, ?wmr_zero⟩⟩,
    fun hir => ⟨fun hout => ?rir, fun hv ha => ?rir_zero⟩⟩
  case rc => exact reaches_readBitsRequest_of_error (sp := .coil) (checkRq8_of_outOfBounds hcoil hout _)
  case wmc => exact reaches_execWmc_of_error (checkRqm_of_outOfBounds hcoil hout _ _ bc d)
  case wsc => exact reaches_execWsc_of_error (checkRq8_of_outOfBounds hcoil hout _)
  case rc_zero => exact reaches_readBitsRequest_of_error (sp := .coil) (checkRq8_of_zero hcoil hv ha _)
  case wmc_zero => exact reaches_execWmc_of_error (checkRqm_of_zero hcoil hv ha _ _ bc d)
  case rdi => exact reaches_readBitsRequest_of_error (sp := .di) (checkRq8_of_outOfBounds hdi hout _)
  case rdi_zero => exact reaches_readBitsRequest_of_error (sp := .di) (checkRq8_of_zero hdi hv ha _)
  case rhr => exact reaches_readWordsRequest_of_error (sp := .hr) (checkRq8_of_outOfBounds hhr hout _)
  case wmr => exact reaches_execWmr_of_error (checkRqm_of_outOfBounds hhr hout _ _ bc d)
  case wsr => exact reaches_execWsr_of_error (checkRq8_of_outOfBounds hhr hout _)
  case rhr_zero => exact reaches_readWordsRequest_of_error (sp := .hr) (checkRq8_of_zero hhr hv ha _)
  case wmr_zero => exact reaches_execWmr_of_error (checkRqm_of_zero hhr hv ha _ _ bc d)
  case rir => exact reaches_readWordsRequest_of_error (sp := .ir) (checkRq8_of_outOfBounds hir hout _)
  case rir_zero => exact reaches_readWordsRequest_of_error (sp := .ir) (checkRq8_of_zero hir hv ha _)

/-- Settles O41: in bounds, K4 fails on a coil value that is neither form, and on a byte count that is not the expected one
or not what came. -/
theorem badValueOrByteCountIsIllegalValue : Obligations.BadValueOrByteCountIsIllegalValue := by
  unfold Obligations.BadValueOrByteCountIsIllegalValue
  intro s u bc a v d
  refine ⟨fun hin hoff hon => ?wsc, fun hin hbound hbad => ?wmc, fun hin hbound hbad => ?wmr⟩
  case wsc =>
    have hbound : s.cfg.nCoil ≠ 0 := by omega
    exact reaches_execWsc_of_error (checkRq8_of_badValue hbound hin (by simp [coilValueOk, hoff, hon]))
  case wmc => exact reaches_execWmc_of_error (checkRqm_of_badLength hbound hin hbad _)
  case wmr => exact reaches_execWmr_of_error (checkRqm_of_badLength hbound hin hbad _)

end Sys2Proof.Proofs
end

section
/-! PROOFS. What a request does, in two parts: its plan, which its checks, `cfg` and the tables decide, and the plan's
performance (42_dispatcher.md R170). -/

namespace Sys2Proof.Machine

open Sys2Proof.Claims

variable {s t : State} {u fc : Byte} {i : Instr}

/-! ## Plans -/

/-- What a request stores. -/
inductive Stores where
  | nothing
  | coils (a : Nat) (vs : List Bool)
  | registers (a : Nat) (vs : List Word)

/-- What a request that passes its checks does: the payload of its reply, its hook, and what it stores. -/
structure Action where
  payload : List Byte
  time : HookTime
  hook : Hook
  stores : Stores

/-- The stores are made. -/
def Stores.apply : Stores → State → State
  | .nothing, s => s
  | .coils a vs, s => s.bitsWrite .coil a vs
  | .registers a vs, s => s.wordsWrite .hr a vs

/-- A read that replies with `p`. -/
def readAction (fc : Byte) (a v : Word) (p : List Byte) : Action := ⟨p, .pre, ⟨fc, a, v⟩, .nothing⟩

/-- A write of quantity `q`. -/
def writeAction (fc : Byte) (a v q : Word) (w : Stores) : Action := ⟨writeReply a v, .post, ⟨fc, a, q⟩, w⟩

/-- The exception a request raises, or what it does. -/
def plan (i : Instr) (s : State) : Except Exc Action :=
  match i with
  | .rc _ r => (checkRq8 (s.bitCount .coil) quantityV (quantityOk 2000) r).map fun (a, v) =>
      readAction 0x01#8 a v (bitReply (s.bitsRead .coil a.toNat v.toNat))
  | .rdi _ r => (checkRq8 (s.bitCount .di) quantityV (quantityOk 2000) r).map fun (a, v) =>
      readAction 0x02#8 a v (bitReply (s.bitsRead .di a.toNat v.toNat))
  | .rhr _ r => (checkRq8 (s.wordCount .hr) quantityV (quantityOk 125) r).map fun (a, v) =>
      readAction 0x03#8 a v (wordReply (s.wordsRead .hr a.toNat v.toNat))
  | .rir _ r => (checkRq8 (s.wordCount .ir) quantityV (quantityOk 125) r).map fun (a, v) =>
      readAction 0x04#8 a v (wordReply (s.wordsRead .ir a.toNat v.toNat))
  | .wsc _ r => (checkRq8 (s.bitCount .coil) quantityOne coilValueOk r).map fun (a, v) =>
      writeAction 0x05#8 a v 1#16 (.coils a.toNat [v == 0xFF00#16])
  | .wsr _ r => (checkRq8 (s.wordCount .hr) quantityOne anyValueOk r).map fun (a, v) =>
      writeAction 0x06#8 a v 1#16 (.registers a.toNat [v])
  | .wmc _ r => (checkRqm (s.bitCount .coil) 1968 bytesForBits r).map fun (a, v, d) =>
      writeAction 0x0F#8 a v v (.coils a.toNat (unpackBits v.toNat d))
  | .wmr _ r => (checkRqm (s.wordCount .hr) 123 bytesForWords r).map fun (a, v, d) =>
      writeAction 0x10#8 a v v (.registers a.toNat (bytesWords d))

/-- The exception is taken, or the stores are made and the request ends normally. -/
def perform (u fc : Byte) : Except Exc Action → State → State
  | .error e, s => raiseExc u fc e s
  | .ok x, s => complete u fc x.payload x.time x.hook (x.stores.apply s)

/-- Every request performs its plan. -/
theorem exec_eq_perform (i : Instr) (s : State) : exec i s = .next (perform i.unit i.fc (plan i s) s) := by
  cases i with
  | rc u r =>
    simp only [exec, execRc, readBitsRequest, plan]
    cases checkRq8 (s.bitCount .coil) quantityV (quantityOk 2000) r <;> rfl
  | rdi u r =>
    simp only [exec, execRdi, readBitsRequest, plan]
    cases checkRq8 (s.bitCount .di) quantityV (quantityOk 2000) r <;> rfl
  | rhr u r =>
    simp only [exec, execRhr, readWordsRequest, plan]
    cases checkRq8 (s.wordCount .hr) quantityV (quantityOk 125) r <;> rfl
  | rir u r =>
    simp only [exec, execRir, readWordsRequest, plan]
    cases checkRq8 (s.wordCount .ir) quantityV (quantityOk 125) r <;> rfl
  | wsc u r =>
    simp only [exec, execWsc, plan]
    cases checkRq8 (s.bitCount .coil) quantityOne coilValueOk r <;> rfl
  | wsr u r =>
    simp only [exec, execWsr, plan]
    cases checkRq8 (s.wordCount .hr) quantityOne anyValueOk r <;> rfl
  | wmc u r =>
    simp only [exec, execWmc, plan]
    cases checkRqm (s.bitCount .coil) 1968 bytesForBits r <;> rfl
  | wmr u r =>
    simp only [exec, execWmr, plan]
    cases checkRqm (s.wordCount .hr) 123 bytesForWords r <;> rfl

theorem map_eq_ok {ε α β : Type} {f : α → β} {c : Except ε α} {y : β} :
    c.map f = .ok y ↔ ∃ x, c = .ok x ∧ f x = y := by
  cases c <;> simp [Except.map]

/-- The plan is decided by `cfg` and the four tables. -/
theorem plan_congr (i : Instr) (hcfg : t.cfg = s.cfg) (hcoil : t.coil = s.coil) (hdi : t.di = s.di) (hhr : t.hr = s.hr)
    (hir : t.ir = s.ir) : plan i t = plan i s := by
  have hbits (sp : BitSpace) : t.bits sp = s.bits sp := by cases sp <;> assumption
  have hwords (sp : WordSpace) : t.words sp = s.words sp := by cases sp <;> assumption
  cases i <;>
    simp only [plan, State.bitCount, State.wordCount, State.bitsRead, State.wordsRead, hcfg, hbits, hwords]

/-- The plan of a write is decided by `cfg` alone. -/
theorem plan_congr_of_write (hfc : i.fc ∈ [0x05#8, 0x06#8, 0x0F#8, 0x10#8]) (hcfg : t.cfg = s.cfg) :
    plan i t = plan i s := by
  cases i with
  | wsc | wsr | wmc | wmr => simp only [plan, State.bitCount, State.wordCount, hcfg]
  | rc | rdi | rhr | rir => simp [Instr.fc] at hfc

/-- A read stores nothing and replies with at most 251 bytes; a write stores in the one table of its function. -/
inductive Fits (i : Instr) : Action → Prop where
  | read {a v : Word} {p : List Byte} : i.fc ∈ [0x01#8, 0x02#8, 0x03#8, 0x04#8] → p.length ≤ 251 →
      Fits i (readAction i.fc a v p)
  | coils {a v q : Word} {b : Nat} {vs : List Bool} : i.fc ∈ [0x05#8, 0x0F#8] →
      Fits i (writeAction i.fc a v q (.coils b vs))
  | registers {a v q : Word} {b : Nat} {vs : List Word} : i.fc ∈ [0x06#8, 0x10#8] →
      Fits i (writeAction i.fc a v q (.registers b vs))

/-- What a request that passes its checks does fits its function. -/
theorem fits_of_plan {x : Action} (h : plan i s = .ok x) : Fits i x := by
  cases i with
  | rc u r | rdi u r =>
    obtain ⟨⟨a, v⟩, hcheck, rfl⟩ := map_eq_ok.1 h
    obtain ⟨-, -, -, hquantity⟩ := checkRq8_eq_ok.1 hcheck
    exact .read (by simp [Instr.fc]) (bitReply_length_le _ a v hquantity)
  | rhr u r | rir u r =>
    obtain ⟨⟨a, v⟩, hcheck, rfl⟩ := map_eq_ok.1 h
    obtain ⟨-, -, -, hquantity⟩ := checkRq8_eq_ok.1 hcheck
    exact .read (by simp [Instr.fc]) (wordReply_length_le _ a v hquantity)
  | wsc u r | wmc u r =>
    obtain ⟨_, -, rfl⟩ := map_eq_ok.1 h
    exact .coils (by simp [Instr.fc])
  | wsr u r | wmr u r =>
    obtain ⟨_, -, rfl⟩ := map_eq_ok.1 h
    exact .registers (by simp [Instr.fc])

/-- The action of a read. -/
theorem readAction_of_plan {x : Action} (h : plan i s = .ok x) (hfc : i.fc ∈ [0x01#8, 0x02#8, 0x03#8, 0x04#8]) :
    ∃ a v p, x = readAction i.fc a v p := by
  have hreads : ∀ b : Byte, b ∈ [0x01#8, 0x02#8, 0x03#8, 0x04#8] → b ∉ [0x05#8, 0x0F#8] ∧ b ∉ [0x06#8, 0x10#8] := by decide
  cases fits_of_plan h with
  | read => exact ⟨_, _, _, rfl⟩
  | coils hcoils => exact absurd hcoils (hreads _ hfc).1
  | registers hregisters => exact absurd hregisters (hreads _ hfc).2

/-- The action of a write. -/
theorem writeAction_of_plan {x : Action} (h : plan i s = .ok x) (hfc : i.fc ∈ [0x05#8, 0x06#8, 0x0F#8, 0x10#8]) :
    ∃ a v q w, x = writeAction i.fc a v q w := by
  have hwrites : ∀ b : Byte, b ∈ [0x05#8, 0x06#8, 0x0F#8, 0x10#8] → b ∉ [0x01#8, 0x02#8, 0x03#8, 0x04#8] := by decide
  cases fits_of_plan h with
  | read hread => exact absurd hread (hwrites _ hfc)
  | coils | registers => exact ⟨_, _, _, _, rfl⟩

/-! ## Performances -/

variable {x : Except Exc Action} {y : Action}

/-- What a plan leaves in the tables. -/
def stored : Except Exc Action → State → State
  | .error _, s => s
  | .ok x, s => x.stores.apply s

/-- `t` is `s`, but for the registers a read may change: the hook port, those of an ended transaction, and the history. -/
def ReadFrame (s t : State) : Prop :=
  t = { s with
    phase := t.phase, rxLen := t.rxLen, txBuf := t.txBuf, txLen := t.txLen, txIdx := t.txIdx, txEnR := t.txEnR
    out := { s.out with hook := t.out.hook }, events := t.events }

/-- `t` is `s`, but for the registers a write may change besides its table: the hook that waits for the release, those of an
ended transaction, and the history. -/
def WriteFrame (s t : State) : Prop :=
  t = { s with
    phase := t.phase, rxLen := t.rxLen, txBuf := t.txBuf, txLen := t.txLen, txIdx := t.txIdx, txEnR := t.txEnR
    pendHook := t.pendHook, events := t.events }

/-- `t` is `s`, but for the registers any request may change. -/
def RequestFrame (s t : State) : Prop :=
  t = { s with
    phase := t.phase, rxLen := t.rxLen, txBuf := t.txBuf, txLen := t.txLen, txIdx := t.txIdx, txEnR := t.txEnR
    pendHook := t.pendHook, out := { s.out with hook := t.out.hook }, events := t.events }

theorem readFrame_raiseExc (u fc : Byte) (e : Exc) (s : State) : ReadFrame s (raiseExc u fc e s) := by
  unfold ReadFrame raiseExc
  split <;> rfl

theorem writeFrame_raiseExc (u fc : Byte) (e : Exc) (s : State) : WriteFrame s (raiseExc u fc e s) := by
  unfold WriteFrame raiseExc
  split <;> rfl

theorem readFrame_complete (u fc : Byte) (p : List Byte) (k : Hook) (s : State) :
    ReadFrame s (complete u fc p .pre k s) := by
  unfold ReadFrame complete
  rw [notify_pre]
  split <;> rfl

theorem writeFrame_complete (u fc : Byte) (p : List Byte) (k : Hook) (s : State) :
    WriteFrame s (complete u fc p .post k s) := by
  unfold WriteFrame complete
  rw [notify_post]
  split <;> rfl

theorem ReadFrame.request (h : ReadFrame s t) : RequestFrame s t := by
  unfold ReadFrame at h
  unfold RequestFrame
  rw [h]

theorem WriteFrame.request (h : WriteFrame s t) : RequestFrame s t := by
  unfold WriteFrame at h
  unfold RequestFrame
  rw [h]

/-- A read makes no hook due. -/
theorem ReadFrame.pendHook (h : ReadFrame s t) : t.pendHook = s.pendHook := by rw [h]

/-- A write strobes no hook. -/
theorem WriteFrame.out (h : WriteFrame s t) : t.out = s.out := by rw [h]

theorem RequestFrame.coil (h : RequestFrame s t) : t.coil = s.coil := by rw [h]
theorem RequestFrame.di (h : RequestFrame s t) : t.di = s.di := by rw [h]
theorem RequestFrame.hr (h : RequestFrame s t) : t.hr = s.hr := by rw [h]
theorem RequestFrame.ir (h : RequestFrame s t) : t.ir = s.ir := by rw [h]
theorem RequestFrame.cfg (h : RequestFrame s t) : t.cfg = s.cfg := by rw [h]
theorem RequestFrame.t15 (h : RequestFrame s t) : t.t15 = s.t15 := by rw [h]
theorem RequestFrame.t35 (h : RequestFrame s t) : t.t35 = s.t35 := by rw [h]
theorem RequestFrame.build (h : RequestFrame s t) : t.build = s.build := by rw [h]
theorem RequestFrame.rxBuf (h : RequestFrame s t) : t.rxBuf = s.rxBuf := by rw [h]
theorem RequestFrame.rxQueue (h : RequestFrame s t) : t.rxQueue = s.rxQueue := by rw [h]
theorem RequestFrame.env (h : RequestFrame s t) : t.env = s.env := by rw [h]
theorem RequestFrame.rxPop (h : RequestFrame s t) : t.out.rxPop = s.out.rxPop := by rw [h]

/-- Whatever its plan, a request changes the tables as planned, and otherwise at most the registers of `RequestFrame`. -/
theorem requestFrame_perform (u fc : Byte) (x : Except Exc Action) (s : State) :
    RequestFrame (stored x s) (perform u fc x s) := by
  match x with
  | .error e => exact (readFrame_raiseExc u fc e s).request
  | .ok ⟨p, .pre, k, w⟩ => exact (readFrame_complete u fc p k _).request
  | .ok ⟨p, .post, k, w⟩ => exact (writeFrame_complete u fc p k _).request

/-- Stores reach the two tables the bus may write, and nothing else. -/
theorem writesTables_stored (x : Except Exc Action) (s : State) : WritesTables s (stored x s) := by
  match x with
  | .error _ | .ok ⟨_, _, _, .nothing⟩ => exact .refl s
  | .ok ⟨_, _, _, .coils a vs⟩ => exact writesTables_coil a vs
  | .ok ⟨_, _, _, .registers a vs⟩ => exact writesTables_hr a vs

@[simp] theorem stored_rxBuf : (stored x s).rxBuf = s.rxBuf := by rw [(writesTables_stored x s).same]
@[simp] theorem stored_rxLen : (stored x s).rxLen = s.rxLen := by rw [(writesTables_stored x s).same]
@[simp] theorem stored_txBuf : (stored x s).txBuf = s.txBuf := by rw [(writesTables_stored x s).same]
@[simp] theorem stored_pendHook : (stored x s).pendHook = s.pendHook := by rw [(writesTables_stored x s).same]
@[simp] theorem stored_cfg : (stored x s).cfg = s.cfg := by rw [(writesTables_stored x s).same]
@[simp] theorem stored_t15 : (stored x s).t15 = s.t15 := by rw [(writesTables_stored x s).same]
@[simp] theorem stored_t35 : (stored x s).t35 = s.t35 := by rw [(writesTables_stored x s).same]
@[simp] theorem stored_build : (stored x s).build = s.build := by rw [(writesTables_stored x s).same]
@[simp] theorem stored_di : (stored x s).di = s.di := by rw [(writesTables_stored x s).same]
@[simp] theorem stored_ir : (stored x s).ir = s.ir := by rw [(writesTables_stored x s).same]
@[simp] theorem stored_rxQueue : (stored x s).rxQueue = s.rxQueue := by rw [(writesTables_stored x s).same]
@[simp] theorem stored_out : (stored x s).out = s.out := by rw [(writesTables_stored x s).same]
@[simp] theorem stored_env : (stored x s).env = s.env := by rw [(writesTables_stored x s).same]
@[simp] theorem stored_events : (stored x s).events = s.events := by rw [(writesTables_stored x s).same]

/-- The body of the reply to an addressed request. -/
def replyBody (u fc : Byte) : Except Exc Action → List Byte
  | .error e => [u, excFc fc, e.code]
  | .ok x => u :: fc :: x.payload

/-- The label of a request's end (00_scope.md R10). -/
def label (u fc : Byte) : Except Exc Action → Event
  | .error e => if u = 0#8 then .bcastExc fc e else .exc fc e
  | .ok _ => if u = 0#8 then .bcastOk fc else .reply fc

/-- A broadcast is performed silently. -/
theorem perform_bcast (hu : u = 0#8) : perform u fc x s = silently (label u fc x) (stored x s) := by
  subst hu
  cases x <;> rfl

/-- `t` is `s` with a reply of body `body` loaded, as far as the response builder's registers say. -/
structure Loads (body : List Byte) (s t : State) : Prop where
  phase : t.phase = .transmit
  txBuf : t.txBuf = withCrc body ++ s.txBuf.drop (withCrc body).length
  txLen : t.txLen = (withCrc body).length
  txIdx : t.txIdx = 0
  txEnR : t.txEnR = true
  rxLen : t.rxLen = s.rxLen

/-- An addressed request loads its reply. -/
theorem loads_perform (hu : u ≠ 0#8) : Loads (replyBody u fc x) (stored x s) (perform u fc x s) := by
  have hb := bcast_eq_false hu
  cases x with
  | error e =>
    rw [perform, raiseExc_unicast hb]
    exact ⟨rfl, rfl, rfl, rfl, rfl, rfl⟩
  | ok y =>
    rw [perform, complete_unicast hb]
    constructor <;> simp [replyBody, stored]

/-- The reply a request loads. -/
theorem Loads.reply {body : List Byte} (h : Loads body s t) : t.txBuf.take t.txLen = withCrc body := by
  rw [h.txBuf, h.txLen, List.take_left]

theorem perform_events : (perform u fc x s).events = (stored x s).events ++ [label u fc x] := by
  by_cases hu : u = 0#8
  · rw [perform_bcast hu]
    rfl
  · have hb := bcast_eq_false hu
    cases x with
    | error e => simp [perform, raiseExc_unicast hb, stored, label, hu]
    | ok y => simp [perform, complete_unicast hb, stored, label, hu]

/-- A strobe comes with a configured hook, an addressed request and the normal end of a read. -/
theorem hook_perform (h : (perform u fc x s).out.hook ≠ s.out.hook) :
    s.cfg.hasHook = true ∧ u ≠ 0#8 ∧ ∃ y, x = .ok y ∧ y.time = .pre := by
  have hu : u ≠ 0#8 := fun hu => h (by rw [perform_bcast hu]; exact congrArg Outputs.hook stored_out)
  match x with
  | .error e => exact absurd (congrArg Outputs.hook (writeFrame_raiseExc u fc e s).out) h
  | .ok ⟨p, .post, k, w⟩ =>
    have hkept : (perform u fc (.ok ⟨p, .post, k, w⟩) s).out = (stored (.ok ⟨p, .post, k, w⟩) s).out :=
      (writeFrame_complete u fc p k _).out
    exact absurd (by rw [hkept, stored_out]) h
  | .ok ⟨p, .pre, k, w⟩ =>
    refine ⟨?_, hu, _, rfl, rfl⟩
    have hb := bcast_eq_false hu
    have hcfg : (w.apply s).cfg = s.cfg := stored_cfg (x := .ok ⟨p, .pre, k, w⟩)
    have hout : (w.apply s).out = s.out := stored_out (x := .ok ⟨p, .pre, k, w⟩)
    by_contra hno
    exact h (by simp [perform, complete_unicast hb, notify_pre, hcfg, hout, hno])

/-- A hook becomes due with a configured hook, an addressed request and the normal end of a write. -/
theorem pendHook_perform (h : (perform u fc x s).pendHook ≠ s.pendHook) :
    s.cfg.hasHook = true ∧ u ≠ 0#8 ∧ ∃ y, x = .ok y ∧ y.time = .post := by
  have hu : u ≠ 0#8 := fun hu => h (by rw [perform_bcast hu]; exact stored_pendHook)
  match x with
  | .error e => exact absurd (readFrame_raiseExc u fc e s).pendHook h
  | .ok ⟨p, .pre, k, w⟩ =>
    have hkept : (perform u fc (.ok ⟨p, .pre, k, w⟩) s).pendHook = (stored (.ok ⟨p, .pre, k, w⟩) s).pendHook :=
      (readFrame_complete u fc p k _).pendHook
    exact absurd (by rw [hkept, stored_pendHook]) h
  | .ok ⟨p, .post, k, w⟩ =>
    refine ⟨?_, hu, _, rfl, rfl⟩
    have hb := bcast_eq_false hu
    have hcfg : (w.apply s).cfg = s.cfg := stored_cfg (x := .ok ⟨p, .post, k, w⟩)
    have hdue : (w.apply s).pendHook = s.pendHook := stored_pendHook (x := .ok ⟨p, .post, k, w⟩)
    by_contra hno
    exact h (by simp [perform, complete_unicast hb, notify_post, hcfg, hdue, hno])

/-! A request leaves the tables as its plan does, and `cfg` alone. -/

theorem perform_coil : (perform u fc x s).coil = (stored x s).coil := (requestFrame_perform u fc x s).coil
theorem perform_di : (perform u fc x s).di = s.di := (requestFrame_perform u fc x s).di.trans stored_di
theorem perform_hr : (perform u fc x s).hr = (stored x s).hr := (requestFrame_perform u fc x s).hr
theorem perform_ir : (perform u fc x s).ir = s.ir := (requestFrame_perform u fc x s).ir.trans stored_ir
theorem perform_cfg : (perform u fc x s).cfg = s.cfg := (requestFrame_perform u fc x s).cfg.trans stored_cfg

end Sys2Proof.Machine
end

section
/-! PROOFS. What the eight requests leave unchanged (20_memory.md), that they are idempotent on the tables (R76), that
registers read back as written (R80), and that the reply depends on request, `cfg` and tables only (47_response_builder.md
R230). -/

namespace Sys2Proof

theorem wordBytes_bytesWords {n : Nat} (d : List Byte) (h : d.length = 2 * n) : wordBytes (bytesWords d) = d := by
  induction n generalizing d with
  | zero => rw [List.length_eq_zero_iff.1 h]; rfl
  | succ n ih =>
    match d, h with
    | x :: y :: d, h => simp [bytesWords, wordBytes, ih d (by simp at h; omega)]
    | [_], h => simp at h; omega

end Sys2Proof

namespace Sys2Proof.Machine

open Sys2Proof.Claims

variable {s t : State} {u fc : Byte} {i : Instr} {x : Except Exc Action}

/-! ## Writing the same again -/

/-- The same stores a second time change nothing. -/
theorem cellsWrite_idem {α : Type} [DecidableEq α] {d : α} {t : List (Nat × α)} (h : Memory.wf d t = true) (a : Nat)
    (vs : List α) : cellsWrite d (cellsWrite d t a vs) a vs = cellsWrite d t a vs := by
  have h1 := cellsWrite_wf vs h a
  refine wfFrom_ext (cellsWrite_wf vs h1 a) h1 fun b => ?_
  rw [cellGet_cellsWrite vs h1]
  split
  · next hb => rw [cellGet_cellsWrite vs h, if_pos hb]
  · rfl

/-- The elements a store does not reach. -/
theorem cellGet_cellsWrite_outside {α : Type} [DecidableEq α] {d : α} {t : List (Nat × α)} (h : Memory.wf d t = true)
    {a b : Nat} (vs : List α) (hb : b < a ∨ a + vs.length ≤ b) : cellGet d (cellsWrite d t a vs) b = cellGet d t b := by
  rw [cellGet_cellsWrite vs h, if_neg (by omega)]

/-- What a read of exactly the words just written returns. -/
theorem wordsRead_wordsWrite (h : s.memoryWf = true) (sp : WordSpace) (a : Nat) (vs : List Word) :
    (s.wordsWrite sp a vs).wordsRead sp a vs.length = vs := by
  refine List.ext_getElem? fun j => ?_
  by_cases hj : j < vs.length
  · rw [wordsRead_getElem? sp hj, wordAt_wordsWrite h, if_pos ⟨rfl, by omega, by omega⟩]
    simp [hj]
  · rw [List.getElem?_eq_none (by simpa using hj), List.getElem?_eq_none (by simpa using hj)]

/-! ## Frames -/

/-- A read, whether its checks fail or pass, keeps to its frame. -/
theorem readFrame_of_exec (hfc : i.fc ∈ [0x01#8, 0x02#8, 0x03#8, 0x04#8]) (h : exec i s = .next t) : ReadFrame s t := by
  rw [exec_eq_perform] at h
  cases h
  cases hplan : plan i s with
  | error e => exact readFrame_raiseExc _ _ e s
  | ok x =>
    obtain ⟨a, v, p, rfl⟩ := readAction_of_plan hplan hfc
    exact readFrame_complete _ _ p _ s

/-- A write, whether its checks fail or pass, leaves the tables as planned and otherwise keeps to its frame. -/
theorem writeFrame_of_exec (hfc : i.fc ∈ [0x05#8, 0x06#8, 0x0F#8, 0x10#8]) (h : exec i s = .next t) :
    WriteFrame (stored (plan i s) s) t := by
  rw [exec_eq_perform] at h
  cases h
  cases hplan : plan i s with
  | error e => exact writeFrame_raiseExc _ _ e s
  | ok x =>
    obtain ⟨a, v, q, w, rfl⟩ := writeAction_of_plan hplan hfc
    exact writeFrame_complete _ _ _ _ _

theorem ReadFrame.bitAt (h : ReadFrame s t) (sp : BitSpace) (a : Nat) : t.bitAt sp a = s.bitAt sp a := by
  rw [h]
  cases sp <;> rfl

theorem ReadFrame.wordAt (h : ReadFrame s t) (sp : WordSpace) (a : Nat) : t.wordAt sp a = s.wordAt sp a := by
  rw [h]
  cases sp <;> rfl

/-- `WriteFrame`, and the contents of table COIL. -/
def CoilWriteFrame (s t : State) : Prop :=
  t = { s with
    coil := t.coil
    phase := t.phase, rxLen := t.rxLen, txBuf := t.txBuf, txLen := t.txLen, txIdx := t.txIdx, txEnR := t.txEnR
    pendHook := t.pendHook, events := t.events }

/-- `WriteFrame`, and the contents of table HR. -/
def RegisterWriteFrame (s t : State) : Prop :=
  t = { s with
    hr := t.hr
    phase := t.phase, rxLen := t.rxLen, txBuf := t.txBuf, txLen := t.txLen, txIdx := t.txIdx, txEnR := t.txEnR
    pendHook := t.pendHook, events := t.events }

/-- A plan that stores nothing, or coils none of which is one of `keep`, leaves the coils of `keep` and all else in the
frame. -/
theorem WriteFrame.coils (hframe : WriteFrame (stored x s) t) (hwf : s.memoryWf = true) {keep : Nat → Prop}
    (hstores : ∀ y, x = .ok y → ∃ a vs, y.stores = .coils a vs ∧ ∀ b, keep b → b < a ∨ a + vs.length ≤ b) :
    (∀ b, keep b → t.bitAt .coil b = s.bitAt .coil b) ∧ CoilWriteFrame s t := by
  obtain ⟨hcoil, -⟩ := memoryWf_iff.1 hwf
  unfold WriteFrame at hframe
  unfold CoilWriteFrame
  match x with
  | .error _ => exact ⟨fun _ _ => by rw [hframe]; rfl, by rw [hframe]; rfl⟩
  | .ok ⟨_, _, _, w⟩ =>
    obtain ⟨a, vs, rfl, hkeep⟩ := hstores _ rfl
    refine ⟨fun b hb => ?_, by rw [hframe]; rfl⟩
    rw [hframe]
    exact cellGet_cellsWrite_outside hcoil vs (hkeep b hb)

/-- A plan that stores nothing, or registers none of which is one of `keep`, leaves the registers of `keep` and all else in
the frame. -/
theorem WriteFrame.registers (hframe : WriteFrame (stored x s) t) (hwf : s.memoryWf = true) {keep : Nat → Prop}
    (hstores : ∀ y, x = .ok y → ∃ a vs, y.stores = .registers a vs ∧ ∀ b, keep b → b < a ∨ a + vs.length ≤ b) :
    (∀ b, keep b → t.wordAt .hr b = s.wordAt .hr b) ∧ RegisterWriteFrame s t := by
  obtain ⟨-, -, hhr, -⟩ := memoryWf_iff.1 hwf
  unfold WriteFrame at hframe
  unfold RegisterWriteFrame
  match x with
  | .error _ => exact ⟨fun _ _ => by rw [hframe]; rfl, by rw [hframe]; rfl⟩
  | .ok ⟨_, _, _, w⟩ =>
    obtain ⟨a, vs, rfl, hkeep⟩ := hstores _ rfl
    refine ⟨fun b hb => ?_, by rw [hframe]; rfl⟩
    rw [hframe]
    exact cellGet_cellsWrite_outside hhr vs (hkeep b hb)

/-! ## The same request again -/

/-- Storing the same again changes no table. -/
theorem stored_again (hwf : s.memoryWf = true) (x : Except Exc Action) (hcoil : t.coil = (stored x s).coil)
    (hhr : t.hr = (stored x s).hr) : (stored x t).coil = t.coil ∧ (stored x t).hr = t.hr := by
  obtain ⟨hwcoil, -, hwhr, -⟩ := memoryWf_iff.1 hwf
  match x with
  | .error _ | .ok ⟨_, _, _, .nothing⟩ => exact ⟨rfl, rfl⟩
  | .ok ⟨_, _, _, .coils a vs⟩ =>
    have hc : t.coil = cellsWrite unlistedBit s.coil a vs := hcoil
    exact ⟨by simp [stored, Stores.apply, hc, cellsWrite_idem hwcoil], rfl⟩
  | .ok ⟨_, _, _, .registers a vs⟩ =>
    have hh : t.hr = cellsWrite unlistedWord s.hr a vs := hhr
    exact ⟨rfl, by simp [stored, Stores.apply, hh, cellsWrite_idem hwhr]⟩

/-- A request leaves a state in which it has the same plan: one that stores nothing leaves the tables, and the plan of a
write does not look at them. -/
theorem plan_perform (i : Instr) (u fc : Byte) (s : State) : plan i (perform u fc (plan i s) s) = plan i s := by
  have hkept (h : stored (plan i s) s = s) : plan i (perform u fc (plan i s) s) = plan i s := by
    have hcoil : (perform u fc (plan i s) s).coil = s.coil := by rw [perform_coil, h]
    have hhr : (perform u fc (plan i s) s).hr = s.hr := by rw [perform_hr, h]
    exact plan_congr i perform_cfg hcoil perform_di hhr perform_ir
  have hwrites : ∀ b : Byte, b ∈ [0x05#8, 0x0F#8] ∨ b ∈ [0x06#8, 0x10#8] → b ∈ [0x05#8, 0x06#8, 0x0F#8, 0x10#8] := by
    decide
  cases hplan : plan i s with
  | error e =>
    rw [hplan] at hkept
    exact hkept rfl
  | ok x =>
    rw [hplan] at hkept
    cases fits_of_plan hplan with
    | read => exact hkept rfl
    | coils hfc => exact hplan ▸ plan_congr_of_write (hwrites _ (.inl hfc)) perform_cfg
    | registers hfc => exact hplan ▸ plan_congr_of_write (hwrites _ (.inr hfc)) perform_cfg

/-! ## The reply -/

theorem perform_phase : (perform u fc x s).phase = if u = 0#8 then .idle else .transmit := by
  by_cases hu : u = 0#8
  · rw [if_pos hu, perform_bcast hu]
    rfl
  · rw [if_neg hu, (loads_perform hu).phase]

/-- What a plan leaves in the tables the bus may write depends on these two tables alone. -/
theorem stored_congr (x : Except Exc Action) (hcoil : t.coil = s.coil) (hhr : t.hr = s.hr) :
    (stored x t).coil = (stored x s).coil ∧ (stored x t).hr = (stored x s).hr := by
  match x with
  | .error _ | .ok ⟨_, _, _, .nothing⟩ => exact ⟨hcoil, hhr⟩
  | .ok ⟨_, _, _, .coils a vs⟩ => exact ⟨congrArg (cellsWrite _ · a vs) hcoil, hhr⟩
  | .ok ⟨_, _, _, .registers a vs⟩ => exact ⟨hcoil, congrArg (cellsWrite _ · a vs) hhr⟩

/-- The reply to a read of the registers just written is byte count and data as they came. -/
theorem wordReply_wordsRead_wordsWrite (hwf : s.memoryWf = true) (sp : WordSpace) (a : Nat) {n : Nat} {bc : Byte}
    {d : List Byte} (hbc : bc.toNat = 2 * n) (hd : d.length = 2 * n) :
    wordReply ((s.wordsWrite sp a (bytesWords d)).wordsRead sp a n) = bc :: d := by
  have hread := wordsRead_wordsWrite hwf sp a (bytesWords d)
  rw [bytesWords_length n d hd] at hread
  rw [hread, wordReply, wordBytes_bytesWords d hd, bytesWords_length n d hd, ← hbc, BitVec.ofNat_toNat]
  rfl

end Sys2Proof.Machine

namespace Sys2Proof.Proofs

open Sys2Proof.Machine

/-- Settles O42: a read keeps to its frame, which holds no table. -/
theorem readsChangeNothingElse : Obligations.ReadsChangeNothingElse := by
  unfold Obligations.ReadsChangeNothingElse
  intro s t u r i hi h
  have hfc : i.fc ∈ [0x01#8, 0x02#8, 0x03#8, 0x04#8] := by
    simp only [List.mem_cons, List.not_mem_nil, or_false] at hi
    rcases hi with rfl | rfl | rfl | rfl <;> simp [Instr.fc]
  have hframe := readFrame_of_exec hfc h
  exact ⟨hframe.bitAt, hframe.wordAt, hframe⟩

/-- Settles O43: a single write keeps to its frame, and what it stores is the one element its fields name. -/
theorem singleWritesChangeOneElement : Obligations.SingleWritesChangeOneElement := by
  unfold Obligations.SingleWritesChangeOneElement
  intro s t u r hwf
  refine ⟨fun h => ?coil, fun h => ?register⟩
  case coil =>
    refine (writeFrame_of_exec (by simp [Instr.fc]) h).coils hwf fun y hy => ?_
    obtain ⟨⟨a, v⟩, hcheck, rfl⟩ := map_eq_ok.1 hy
    refine ⟨_, _, rfl, fun b hb => ?_⟩
    have hne := hb a v (checkRq8_eq_ok.1 hcheck).1
    simp only [List.length_singleton]
    omega
  case register =>
    refine (writeFrame_of_exec (by simp [Instr.fc]) h).registers hwf fun y hy => ?_
    obtain ⟨⟨a, v⟩, hcheck, rfl⟩ := map_eq_ok.1 hy
    refine ⟨_, _, rfl, fun b hb => ?_⟩
    have hne := hb a v (checkRq8_eq_ok.1 hcheck).1
    simp only [List.length_singleton]
    omega

/-- Settles O44: a multiple write keeps to its frame, and what it stores is the range its fields name. -/
theorem multipleWritesChangeTheirRange : Obligations.MultipleWritesChangeTheirRange := by
  unfold Obligations.MultipleWritesChangeTheirRange
  intro s t u r hwf
  refine ⟨fun h => ?coils, fun h => ?registers⟩
  case coils =>
    refine (writeFrame_of_exec (by simp [Instr.fc]) h).coils hwf fun y hy => ?_
    obtain ⟨⟨a, v, d⟩, hcheck, rfl⟩ := map_eq_ok.1 hy
    obtain ⟨bc, hr, -⟩ := checkRqm_eq_ok.1 hcheck
    exact ⟨_, _, rfl, fun b hb => by rw [unpackBits_length]; exact hb a v bc d hr⟩
  case registers =>
    refine (writeFrame_of_exec (by simp [Instr.fc]) h).registers hwf fun y hy => ?_
    obtain ⟨⟨a, v, d⟩, hcheck, rfl⟩ := map_eq_ok.1 hy
    obtain ⟨bc, hr, -, -, -, -, hlen⟩ := checkRqm_eq_ok.1 hcheck
    exact ⟨_, _, rfl, fun b hb => by rw [bytesWords_length v.toNat d hlen]; exact hb a v bc d hr⟩

/-- Settles O45: the request has the same plan again, and storing the same again changes no table. -/
theorem requestsAreIdempotentOnTables : Obligations.RequestsAreIdempotentOnTables := by
  unfold Obligations.RequestsAreIdempotentOnTables
  intro i s t t' hwf h h'
  rw [exec_eq_perform] at h h'
  cases h
  cases h'
  obtain ⟨hcoil, hhr⟩ := stored_again hwf (plan i s) (perform_coil (u := i.unit) (fc := i.fc)) perform_hr
  rw [plan_perform]
  exact ⟨perform_coil.trans hcoil, perform_di, perform_hr.trans hhr, perform_ir⟩

/-- Settles O46: both requests pass their checks, the read finds the words the write stored, and its reply holds them as
bytes. -/
theorem registersReadBackAsWritten : Obligations.RegistersReadBackAsWritten := by
  unfold Obligations.RegistersReadBackAsWritten
  intro s t u u' bc a v d hwf hu' hlo hhi hin hbc hd h
  have hwrite : checkRqm (s.wordCount .hr) 123 bytesForWords (.fields a v bc d) = .ok (a, v, d) :=
    checkRqm_of_inBounds hlo hhi hin hbc hd
  have hplan : plan (.wmr u (.fields a v bc d)) s =
      .ok (writeAction 0x10#8 a v v (.registers a.toNat (bytesWords d))) := by rw [plan, hwrite]; rfl
  rw [exec_eq_perform, hplan] at h
  cases h
  generalize ht : perform _ _ _ s = t
  have hcfg : t.cfg = s.cfg := ht ▸ perform_cfg
  have hhr : t.hr = (s.wordsWrite .hr a.toNat (bytesWords d)).hr := ht ▸ perform_hr
  have hread : checkRq8 (t.wordCount .hr) quantityV (quantityOk 125) (.fields a v) = .ok (a, v) :=
    checkRq8_eq_ok.2 ⟨rfl, by rw [State.wordCount, hcfg]; omega, by rw [State.wordCount, hcfg]; exact hin,
      quantityOk_eq_true_iff.2 ⟨hlo, by omega⟩⟩
  have hwords : t.wordsRead .hr a.toNat v.toNat = (s.wordsWrite .hr a.toNat (bytesWords d)).wordsRead .hr a.toNat v.toNat :=
    congrArg (cellsRead unlistedWord · a.toNat v.toNat) hhr
  have hplan' : plan (.rhr u' (.fields a v)) t = .ok (readAction 0x03#8 a v (bc :: d)) := by
    rw [plan, hread, ← wordReply_wordsRead_wordsWrite hwf .hr a.toNat hbc (hd.trans hbc), ← hwords]
    rfl
  refine ⟨_, by rw [exec_eq_perform, hplan'], ?_⟩
  exact (loads_perform hu').reply

/-- Settles O49: the two states give the request the same plan, and a plan's phase, stores and reply are the same from
both. -/
theorem replyDependsOnRequestAndTablesOnly : Obligations.ReplyDependsOnRequestAndTablesOnly := by
  unfold Obligations.ReplyDependsOnRequestAndTablesOnly
  intro i s s' t t' hcfg hcoil hdi hhr hir h h'
  rw [exec_eq_perform] at h h'
  rw [plan_congr i hcfg hcoil hdi hhr hir] at h'
  cases h
  cases h'
  obtain ⟨hscoil, hshr⟩ := stored_congr (plan i s) hcoil hhr
  refine ⟨by rw [perform_phase, perform_phase], ?_, ?_, fun htransmit => ?_⟩
  · rw [perform_coil, perform_coil, hscoil]
  · rw [perform_hr, perform_hr, hshr]
  · have hu : i.unit ≠ 0#8 := fun hu => by
      rw [perform_phase, if_pos hu] at htransmit
      cases htransmit
    exact ⟨by rw [(loads_perform hu).reply, (loads_perform hu).reply],
      by rw [(loads_perform hu).txLen, (loads_perform hu).txLen]⟩

end Sys2Proof.Proofs
end

section
/-! PROOFS. One tick of the engine in each phase (40_frame_receiver.md R134 to R139, 42_dispatcher.md R170,
47_response_builder.md R235 to R238). -/

namespace Sys2Proof.Machine

open Sys2Proof.Claims

variable {s m : State} {b : Byte}

/-! ## Receiver -/

/-- In a legal tick without reset an engine in RECEIVING makes the receiver's step (10_state.md R22). -/
theorem step_of_receiving (hr : Ready s m) (hp : m.phase = .receiving) : step s = receiveStep m := by
  rw [step_of_ready hr, phaseStep, hp]

/-- In IDLE, before `T35` ticks of silence, the byte taken is dropped. -/
theorem receiveByte_of_early (hp : m.phase = .idle) (ht : m.sil.toNat < m.t35.toNat) : receiveByte b m = earlyByte b m := by
  simp only [receiveByte, hp, ht, if_true]

/-- In RECEIVING the byte taken is the next one. -/
theorem receiveByte_of_receiving (hp : m.phase = .receiving) : receiveByte b m = nextByte b m := by
  rw [receiveByte, hp]

/-- In RECEIVING, fewer than 4 bytes buffered, a silent tick abandons the buffer at `T35`. -/
theorem receiveSilence_of_short (hp : m.phase = .receiving) (hl : m.rxLen < 4) :
    receiveSilence m = .next (if m.t35.toNat ≤ m.sil.toNat then silently .abandon m else m) := by
  have hl' : ¬ 4 ≤ m.rxLen := Nat.not_le.2 hl
  by_cases ht : m.t35.toNat ≤ m.sil.toNat
  · simp only [receiveSilence, hp, minFrame, hl, hl', ht, false_and, and_self, if_false, if_true]
    rfl
  · simp only [receiveSilence, hp, minFrame, hl', ht, false_and, and_false, if_false]

/-- In RECEIVING, at least 4 bytes buffered, a silent tick before `T15` has no further effect. -/
theorem receiveSilence_of_unfinished (hp : m.phase = .receiving) (hl : 4 ≤ m.rxLen) (ht : m.sil.toNat < m.t15.toNat) :
    receiveSilence m = .next m := by
  simp only [receiveSilence, hp, minFrame, Nat.not_lt.2 hl, Nat.not_le.2 ht, and_false, false_and, if_false]

/-- The tick of R138 that waits: only the silence is counted. -/
theorem step_of_unfinished (hr : Ready s m) (hp : m.phase = .receiving) (hq : m.rxQueue = []) (hl : 4 ≤ m.rxLen)
    (ht : min (m.sil.toNat + 1) (2 ^ 32 - 1) < m.t15.toNat) : step s = .next (countSilence m) := by
  have hcounted : (satIncr m.sil).toNat = min (m.sil.toNat + 1) (2 ^ 32 - 1) := counted_satIncr m
  calc step s = receiveStep m := step_of_receiving hr hp
    _ = receiveSilence (countSilence m) := receiveStep_of_empty hq
    _ = .next (countSilence m) := receiveSilence_of_unfinished (m := countSilence m) hp hl (hcounted ▸ ht)

/-! ## EXEC -/

/-- EXEC on a frame that decodes to a request for this unit is that request. -/
theorem execFrame_of_decode {i : Instr} (hd : decode m.frame = .ok i)
    (hunit : i.unit = 0#8 ∨ m.cfg.unitId = 0xFF#8 ∨ i.unit = m.cfg.unitId) : execFrame m = exec i m := by
  obtain ⟨hlen, hcrc, hbody⟩ := decode_eq_ok.1 hd
  rw [unit_of_decodeRequest_ok hbody] at hunit
  have haccept : validate m.cfg.unitId m.frame = .accept (bcast (byteAt m.frame 0)) :=
    validate_eq_accept.2 ⟨hlen, hcrc, rfl, hunit.imp_left bcast_eq_true_iff.2⟩
  simp only [execFrame, haccept, dispatchFrame, hbody]

/-! ## Transmitter -/

/-- A counter below another value does not wrap. -/
theorem toNat_succ_of_lt {n k : Word32} (h : n.toNat < k.toNat) : (n + 1#32).toNat = n.toNat + 1 := by
  have := k.isLt
  rw [BitVec.toNat_add, BitVec.toNat_ofNat]
  omega

theorem step_of_transmit (hr : Ready s m) (hp : m.phase = .transmit) : step s = .next (transmitStep s.input.txReady m) := by
  rw [step_of_ready hr, phaseStep, hp]

theorem step_of_flush (hr : Ready s m) (hp : m.phase = .flush) : step s = .next (flushStep s.input.txDone m) := by
  rw [step_of_ready hr, phaseStep, hp]

end Sys2Proof.Machine

namespace Sys2Proof.Proofs

open Sys2Proof.Machine

/-- Settles O18: the receiver pops the byte and, the silence before it being short, drops it. -/
theorem earlyByteIsDropped : Obligations.EarlyByteIsDropped := by
  unfold Obligations.EarlyByteIsDropped
  intro s m b q hready hphase hqueue hearly
  have hdropped : receiveByte b (popByte q m) = earlyByte b (popByte q m) := receiveByte_of_early hphase hearly
  rw [step_of_idle hready hphase, receiveStep_of_byte hqueue, hdropped]
  rfl

/-- Settles O19: the receiver pops the byte and appends it, and the byte that fills the buffer discards it. -/
theorem nextByteIsAppendedOrOverflows : Obligations.NextByteIsAppendedOrOverflows := by
  unfold Obligations.NextByteIsAppendedOrOverflows
  intro s m b q hready hphase hqueue
  have htaken : receiveByte b (popByte q m) = nextByte b (popByte q m) := receiveByte_of_receiving hphase
  rw [step_of_receiving hready hphase, receiveStep_of_byte hqueue, htaken]
  rcases nextByte_cases b (popByte q m) with ⟨hfull, hnext⟩ | ⟨hroom, hnext⟩
  · rw [hnext, if_pos (show m.rxLen + 1 = m.build.rxBufCap from hfull)]
    rfl
  · rw [hnext, if_neg (show m.rxLen + 1 ≠ m.build.rxBufCap from hroom)]
    rfl

/-- Settles O20: the silence is counted, and a short buffer waits or is abandoned. -/
theorem shortBufferWaitsOrIsAbandoned : Obligations.ShortBufferWaitsOrIsAbandoned := by
  unfold Obligations.ShortBufferWaitsOrIsAbandoned
  intro s m hready hphase hqueue hshort
  refine ⟨satIncr m.sil, counted_satIncr m, ?_⟩
  calc step s = receiveStep m := step_of_receiving hready hphase
    _ = receiveSilence (countSilence m) := receiveStep_of_empty hqueue
    _ = _ := receiveSilence_of_short (m := countSilence m) hphase hshort

/-- Settles O21: the silence is counted, and before `T15` the frame waits. -/
theorem unfinishedFrameWaits : Obligations.UnfinishedFrameWaits := by
  unfold Obligations.UnfinishedFrameWaits
  intro s m hready hphase hqueue hlen hearly
  exact ⟨satIncr m.sil, counted_satIncr m, step_of_unfinished hready hphase hqueue hlen hearly⟩

/-- Settles O22: the completing tick runs EXEC with its silence counted, and EXEC runs the decoded request. -/
theorem stepRunsDecodedRequest : Obligations.StepRunsDecodedRequest := by
  unfold Obligations.StepRunsDecodedRequest
  intro s m i hready hcompletes hdecode _ hunit
  refine ⟨satIncr m.sil, counted_satIncr m, ?_⟩
  rw [step_of_completes hready hcompletes]
  exact execFrame_of_decode (m := countSilence m) hdecode hunit

/-- Settles O51: the byte is offered and, when the transport is ready, taken, as the last one or not. -/
theorem transmitOffersTheNextByte : Obligations.TransmitOffersTheNextByte := by
  unfold Obligations.TransmitOffersTheNextByte
  intro s m hready hphase
  rw [step_of_transmit hready hphase]
  rcases transmitStep_cases s.input.txReady m with ⟨hno, hstep⟩ | ⟨hyes, hmore, hstep⟩ | ⟨hyes, hlast, hstep⟩
  · rw [hstep, hno]
    rfl
  · rw [hstep, hyes, if_neg hmore, if_neg hmore, ← hphase]
    rfl
  · rw [hstep, hyes, if_pos hlast, if_pos hlast]
    rfl

/-- Settles O52: the flush step restarts `hold`, counts it, or releases. -/
theorem flushHoldsThenReleases : Obligations.FlushHoldsThenReleases := by
  unfold Obligations.FlushHoldsThenReleases
  intro s m hready hphase
  rw [step_of_flush hready hphase]
  rcases flushStep_cases s.input.txDone m with ⟨hno, hstep⟩ | ⟨hyes, hheld, hstep⟩ | ⟨hyes, hdone, hstep⟩
  · exact ⟨fun _ => by rw [hstep], fun hyes => absurd hyes (by simp [hno]), fun hyes => absurd hyes (by simp [hno])⟩
  · refine ⟨fun hno => absurd hno (by simp [hyes]), fun _ _ => ⟨m.hold + 1#32, toNat_succ_of_lt hheld, by rw [hstep]⟩,
      fun _ hdone => absurd hheld (Nat.not_lt.2 hdone)⟩
  · refine ⟨fun hno => absurd hno (by simp [hyes]), fun _ hheld => absurd hheld (Nat.not_lt.2 hdone), fun _ _ => ?_⟩
    rw [hstep]
    rfl

end Sys2Proof.Proofs
end

section
/-! PROOFS. What a tick can do, said once (10_state.md R20, R22): the engine resets or makes one of the moves of its phase.
What every tick keeps, consumes, writes and strobes is read off the moves. -/

namespace Sys2Proof.Machine

open Sys2Proof.Claims

variable {s t m : State} {i : TickInput} {f : List Byte} {u fc : Byte} {x : Except Exc Action}

/-! ## The state the engine steps from -/

@[simp] theorem beginTick_phase : (beginTick i s).phase = s.phase := by rw [(beginTick_eq i s).1]
@[simp] theorem beginTick_rxBuf : (beginTick i s).rxBuf = s.rxBuf := by rw [(beginTick_eq i s).1]
@[simp] theorem beginTick_rxLen : (beginTick i s).rxLen = s.rxLen := by rw [(beginTick_eq i s).1]
@[simp] theorem beginTick_txBuf : (beginTick i s).txBuf = s.txBuf := by rw [(beginTick_eq i s).1]
@[simp] theorem beginTick_txLen : (beginTick i s).txLen = s.txLen := by rw [(beginTick_eq i s).1]
@[simp] theorem beginTick_txIdx : (beginTick i s).txIdx = s.txIdx := by rw [(beginTick_eq i s).1]
@[simp] theorem beginTick_hold : (beginTick i s).hold = s.hold := by rw [(beginTick_eq i s).1]
@[simp] theorem beginTick_sil : (beginTick i s).sil = s.sil := by rw [(beginTick_eq i s).1]
@[simp] theorem beginTick_txEnR : (beginTick i s).txEnR = s.txEnR := by rw [(beginTick_eq i s).1]
@[simp] theorem beginTick_pendHook : (beginTick i s).pendHook = s.pendHook := by rw [(beginTick_eq i s).1]
@[simp] theorem beginTick_cfg : (beginTick i s).cfg = s.cfg := by rw [(beginTick_eq i s).1]
@[simp] theorem beginTick_t15 : (beginTick i s).t15 = s.t15 := by rw [(beginTick_eq i s).1]
@[simp] theorem beginTick_t35 : (beginTick i s).t35 = s.t35 := by rw [(beginTick_eq i s).1]
@[simp] theorem beginTick_build : (beginTick i s).build = s.build := by rw [(beginTick_eq i s).1]
@[simp] theorem beginTick_rxQueue : (beginTick i s).rxQueue = s.rxQueue ++ i.arrivals := by rw [(beginTick_eq i s).1]
@[simp] theorem beginTick_txPending : (beginTick i s).txPending = s.txPending.drop i.txLeft := by rw [(beginTick_eq i s).1]
@[simp] theorem beginTick_events : (beginTick i s).events = s.events := by rw [(beginTick_eq i s).1]
@[simp] theorem beginTick_env : (beginTick i s).env = s.env.drop 1 := by rw [(beginTick_eq i s).1]

/-- The other agents cannot make a configuration legal or illegal. -/
@[simp] theorem beginTick_legal : (beginTick i s).legal = s.legal := by simp [State.legal]

/-! ## EXEC as the performance of a plan -/

/-- The plan of an accepted frame: that of its request, or IllegalFunction for a code outside the map. -/
def framePlan (f : List Byte) (s : State) : Except Exc Action :=
  match decodeBody f with
  | .ok j => plan j s
  | .error _ => .error .illegalFunction

/-- An action comes from a request in the frame. -/
theorem framePlan_eq_ok {y : Action} (h : framePlan f s = .ok y) :
    ∃ j : Instr, decodeBody f = .ok j ∧ plan j s = .ok y ∧ j.unit = byteAt f 0 ∧ j.fc = byteAt f 1 := by
  unfold framePlan at h
  split at h
  · next j hj => exact ⟨j, hj, h, unit_of_decodeRequest_ok hj, (fc_payload_of_decodeRequest_ok hj).1⟩
  · cases h

theorem dispatchFrame_eq_perform (f : List Byte) (s : State) :
    dispatchFrame f s = .next (perform (byteAt f 0) (byteAt f 1) (framePlan f s) s) := by
  unfold dispatchFrame framePlan
  cases hd : decodeBody f with
  | ok j => exact (exec_eq_perform j s).trans (by rw [unit_of_decodeRequest_ok hd, (fc_payload_of_decodeRequest_ok hd).1])
  | error e => rfl

/-- What the frame of `m` does in its EXEC tick, this tick's silence counted. -/
def answer (m : State) : State :=
  perform (byteAt m.frame 0) (byteAt m.frame 1) (framePlan m.frame (countSilence m)) (countSilence m)

/-! ## The moves -/

/-- The moves of the engine from `m` in a tick with input `i`. -/
inductive Move (i : TickInput) (m : State) : State → Prop where
  | early {b : Byte} {q : List Byte} : m.phase = .idle → m.rxQueue = b :: q → Move i m (earlyByte b (popByte q m))
  | first {b : Byte} {q : List Byte} : m.phase = .idle → m.rxQueue = b :: q → Move i m (firstByte b (popByte q m))
  | append {b : Byte} {q : List Byte} : m.phase = .receiving → m.rxQueue = b :: q → m.rxLen + 1 ≠ m.build.rxBufCap →
      Move i m { popByte q m with rxBuf := m.rxBuf.set m.rxLen b, rxLen := m.rxLen + 1, sil := 0#32 }
  | overflow {b : Byte} {q : List Byte} : m.phase = .receiving → m.rxQueue = b :: q →
      Move i m (emit .overflow
        { popByte q m with rxBuf := m.rxBuf.set m.rxLen b, rxLen := 0, sil := 0#32, phase := .idle })
  | idle : m.phase = .idle → m.rxQueue = [] → Move i m (countSilence m)
  | wait : m.phase = .receiving → m.rxQueue = [] →
      (satIncr m.sil).toNat < m.t15.toNat ∨ (satIncr m.sil).toNat < m.t35.toNat → Move i m (countSilence m)
  | abandon : m.phase = .receiving → m.rxQueue = [] → Move i m (silently .abandon (countSilence m))
  | drop {e : Event} : Completes m → Move i m (silently e (countSilence m))
  | request {b : Bool} : Completes m → validate m.cfg.unitId m.frame = .accept b → Move i m (answer m)
  | offer : m.phase = .transmit → i.txReady = false →
      Move i m { m with out := { m.out with tx := some (byteAt m.txBuf m.txIdx) } }
  | take : m.phase = .transmit → i.txReady = true → m.txIdx + 1 ≠ m.txLen →
      Move i m { m with
        out := { m.out with tx := some (byteAt m.txBuf m.txIdx) }
        txPending := m.txPending ++ [byteAt m.txBuf m.txIdx], txIdx := m.txIdx + 1 }
  | takeLast : m.phase = .transmit → i.txReady = true → m.txIdx + 1 = m.txLen →
      Move i m { m with
        out := { m.out with tx := some (byteAt m.txBuf m.txIdx) }
        txPending := m.txPending ++ [byteAt m.txBuf m.txIdx], txIdx := m.txIdx + 1, hold := 0#32, phase := .flush }
  | unconfirmed : m.phase = .flush → i.txDone = false → Move i m { m with hold := 0#32 }
  | hold : m.phase = .flush → i.txDone = true → m.hold.toNat < m.cfg.flushHold.toNat →
      Move i m { m with hold := m.hold + 1#32 }
  | release : m.phase = .flush → i.txDone = true → Move i m (release m)

/-- A byte shown to the receiver makes one of its moves. -/
theorem receiveByte_move (hphase : m.phase = .idle ∨ m.phase = .receiving) {b : Byte} {q : List Byte}
    (hqueue : m.rxQueue = b :: q) : Move i m (receiveByte b (popByte q m)) := by
  rcases receiveByte_cases b (popByte q m) with ⟨hidle, -, h⟩ | ⟨hidle, -, h⟩ | ⟨hbusy, h⟩
  · rw [h]
    exact .early hidle hqueue
  · rw [h]
    exact .first hidle hqueue
  · have hreceiving : m.phase = .receiving := hphase.resolve_left hbusy
    rcases nextByte_cases b (popByte q m) with ⟨-, hnext⟩ | ⟨hroom, hnext⟩
    · rw [h, hnext]
      exact .overflow hreceiving hqueue
    · rw [h, hnext]
      exact .append hreceiving hqueue hroom

/-- EXEC drops the frame or answers it. -/
theorem execFrame_move (hc : Completes m) : ∃ t, execFrame (countSilence m) = .next t ∧ Move i m t := by
  cases hv : validate m.cfg.unitId m.frame with
  | drop e => exact ⟨_, execFrame_of_drop (s := countSilence m) hv, .drop hc⟩
  | accept b =>
    refine ⟨answer m, ?_, .request hc hv⟩
    have hv' : validate (countSilence m).cfg.unitId (countSilence m).frame = .accept b := hv
    simp only [execFrame, hv', dispatchFrame_eq_perform]
    rfl

/-- A silent tick in RECEIVING completes the frame, abandons it or waits. -/
theorem receiveSilence_move (hphase : m.phase = .receiving) (hqueue : m.rxQueue = []) :
    ∃ t, receiveSilence (countSilence m) = .next t ∧ Move i m t := by
  have hcount : (satIncr m.sil).toNat = min (m.sil.toNat + 1) (2 ^ 32 - 1) := counted_satIncr m
  by_cases hlen : m.rxLen < 4
  · have hstep := receiveSilence_of_short (m := countSilence m) hphase hlen
    by_cases ht : m.t35.toNat ≤ (satIncr m.sil).toNat
    · exact ⟨_, hstep.trans (congrArg _ (if_pos ht)), .abandon hphase hqueue⟩
    · exact ⟨_, hstep.trans (congrArg _ (if_neg ht)), .wait hphase hqueue (.inr (Nat.lt_of_not_le ht))⟩
  · have hlen : 4 ≤ m.rxLen := Nat.le_of_not_lt hlen
    by_cases ht : m.t15.toNat ≤ (satIncr m.sil).toNat
    · have hc : Completes m := ⟨hphase, hqueue, hlen, hcount ▸ ht⟩
      rw [← receiveStep_of_empty hqueue, receiveStep_of_completes hc]
      exact execFrame_move hc
    · have ht : (satIncr m.sil).toNat < m.t15.toNat := Nat.lt_of_not_le ht
      exact ⟨_, receiveSilence_of_unfinished (m := countSilence m) hphase hlen ht, .wait hphase hqueue (.inl ht)⟩

theorem receiveStep_move (hphase : m.phase = .idle ∨ m.phase = .receiving) :
    ∃ t, receiveStep m = .next t ∧ Move i m t := by
  rcases receiveStep_cases m with ⟨b, q, hqueue, hstep⟩ | ⟨hqueue, hstep⟩
  · exact ⟨_, hstep, receiveByte_move hphase hqueue⟩
  · rw [hstep]
    rcases hphase with hidle | hreceiving
    · exact ⟨_, receiveSilence_of_idle (m := countSilence m) hidle, .idle hidle hqueue⟩
    · exact receiveSilence_move hreceiving hqueue

/-- From every state the engine makes a move. -/
theorem phaseStep_move (i : TickInput) (m : State) : ∃ t, phaseStep i m = .next t ∧ Move i m t := by
  cases hphase : m.phase with
  | idle =>
    rw [phaseStep, hphase]
    exact receiveStep_move (.inl hphase)
  | receiving =>
    rw [phaseStep, hphase]
    exact receiveStep_move (.inr hphase)
  | transmit =>
    refine ⟨transmitStep i.txReady m, by rw [phaseStep, hphase], ?_⟩
    rcases transmitStep_cases i.txReady m with ⟨hno, h⟩ | ⟨hyes, hmore, h⟩ | ⟨hyes, hlast, h⟩
    · rw [h]
      exact .offer hphase hno
    · rw [h]
      exact .take hphase hyes hmore
    · rw [h]
      exact .takeLast hphase hyes hlast
  | flush =>
    refine ⟨flushStep i.txDone m, by rw [phaseStep, hphase], ?_⟩
    rcases flushStep_cases i.txDone m with ⟨hno, h⟩ | ⟨hyes, hheld, h⟩ | ⟨hyes, -, h⟩
    · rw [h]
      exact .unconfirmed hphase hno
    · rw [h]
      exact .hold hphase hyes hheld
    · rw [h]
      exact .release hphase hyes

/-- A tick that answers a next state: a reset, or a move. -/
theorem step_cases (h : step s = .next t) :
    (∃ c, s.input.rst = some c ∧ t = resetTick c (beginTick s.input s)) ∨
    (s.input.rst = none ∧ s.legal = true ∧ Move s.input (beginTick s.input s) t) := by
  rcases engineTick_cases h with hreset | ⟨hrst, hlegal, hstep⟩
  · exact .inl hreset
  · obtain ⟨t', ht', hmove⟩ := phaseStep_move s.input (beginTick s.input s)
    cases hstep.symm.trans ht'
    exact .inr ⟨hrst, beginTick_legal ▸ hlegal, hmove⟩

/-- A legally configured machine without reset makes a move. -/
theorem step_move (hlegal : s.legal = true) (hrst : s.input.rst = none) :
    ∃ t, step s = .next t ∧ Move s.input (beginTick s.input s) t := by
  obtain ⟨t, ht, hmove⟩ := phaseStep_move s.input (beginTick s.input s)
  have hready : Ready s (beginTick s.input s) := ⟨rfl, hrst, beginTick_legal.trans hlegal⟩
  exact ⟨t, (step_of_ready hready).trans ht, hmove⟩

/-- The moves of TRANSMIT. -/
theorem Move.of_transmit (h : Move i m t) (hp : m.phase = .transmit) :
    (i.txReady = false ∧ t = { m with out := { m.out with tx := some (byteAt m.txBuf m.txIdx) } }) ∨
    (i.txReady = true ∧ m.txIdx + 1 ≠ m.txLen ∧ t = { m with
      out := { m.out with tx := some (byteAt m.txBuf m.txIdx) }
      txPending := m.txPending ++ [byteAt m.txBuf m.txIdx], txIdx := m.txIdx + 1 }) ∨
    (i.txReady = true ∧ m.txIdx + 1 = m.txLen ∧ t = { m with
      out := { m.out with tx := some (byteAt m.txBuf m.txIdx) }
      txPending := m.txPending ++ [byteAt m.txBuf m.txIdx], txIdx := m.txIdx + 1, hold := 0#32, phase := .flush }) := by
  cases h with
  | offer _ hno => exact .inl ⟨hno, rfl⟩
  | take _ hyes hmore => exact .inr (.inl ⟨hyes, hmore, rfl⟩)
  | takeLast _ hyes hlast => exact .inr (.inr ⟨hyes, hlast, rfl⟩)
  | early hp' | first hp' | append hp' | overflow hp' | idle hp' | wait hp' | abandon hp' | unconfirmed hp' | hold hp'
  | release hp' => cases hp.symm.trans hp'
  | drop hc | request hc => cases hp.symm.trans hc.1

/-- The moves of FLUSH. -/
theorem Move.of_flush (h : Move i m t) (hp : m.phase = .flush) :
    (i.txDone = false ∧ t = { m with hold := 0#32 }) ∨
    (i.txDone = true ∧ m.hold.toNat < m.cfg.flushHold.toNat ∧ t = { m with hold := m.hold + 1#32 }) ∨
    (i.txDone = true ∧ t = Machine.release m) := by
  cases h with
  | unconfirmed _ hno => exact .inl ⟨hno, rfl⟩
  | hold _ hyes hheld => exact .inr (.inl ⟨hyes, hheld, rfl⟩)
  | release _ hyes => exact .inr (.inr ⟨hyes, rfl⟩)
  | early hp' | first hp' | append hp' | overflow hp' | idle hp' | wait hp' | abandon hp' | offer hp' | take hp'
  | takeLast hp' => cases hp.symm.trans hp'
  | drop hc | request hc => cases hp.symm.trans hc.1

/-- Nothing the engine does is fatal (60_exceptions.md R279). -/
theorem exists_step (h : s.legal = true ∨ s.input.rst ≠ none) : ∃ t, step s = .next t := by
  cases hrst : s.input.rst with
  | some c => exact ⟨_, step_of_reset hrst⟩
  | none =>
    obtain ⟨t, ht, -⟩ := step_move (h.resolve_right (absurd hrst)) hrst
    exact ⟨t, ht⟩

/-! ## What the moves keep -/

/-- The stores of the frame's plan, this tick's silence counted. -/
abbrev answerStores (m : State) : State := stored (framePlan m.frame (countSilence m)) (countSilence m)

theorem requestFrame_answer (m : State) : RequestFrame (answerStores m) (answer m) := requestFrame_perform _ _ _ _

/-- No move changes the configuration. -/
theorem Move.config (h : Move i m t) : t.cfg = m.cfg ∧ t.t15 = m.t15 ∧ t.t35 = m.t35 ∧ t.build = m.build := by
  cases h with
  | request =>
    have h := requestFrame_answer m
    exact ⟨h.cfg.trans stored_cfg, h.t15.trans stored_t15, h.t35.trans stored_t35, h.build.trans stored_build⟩
  | _ => exact ⟨rfl, rfl, rfl, rfl⟩

/-- A move in IDLE or RECEIVING with a byte in the queue takes the oldest, and no other move takes one. -/
theorem Move.pop (h : Move i m t) (hout : m.out.rxPop = false) :
    (t.out.rxPop = true ↔ (m.phase = .idle ∨ m.phase = .receiving) ∧ m.rxQueue ≠ []) ∧
    t.rxQueue = if t.out.rxPop then m.rxQueue.drop 1 else m.rxQueue := by
  cases h with
  | early hp hq | first hp hq | append hp hq | overflow hp hq => simp [hp, hq]
  | idle hp hq | wait hp hq | abandon hp hq => simp [hp, hq, hout, silently]
  | drop hc => simp [hc.1, hc.2.1, hout, silently]
  | request hc =>
    have h := requestFrame_answer m
    have hpop : (answer m).out.rxPop = false := h.rxPop.trans (by rw [stored_out]; exact hout)
    have hqueue : (answer m).rxQueue = m.rxQueue := h.rxQueue.trans stored_rxQueue
    simp [hpop, hqueue, hc.2.1]
  | offer hp | take hp | takeLast hp | unconfirmed hp | hold hp | release hp => simp [hp, hout]

/-- The phase changes of the moves (10_state.md R22). -/
theorem Move.phase (h : Move i m t) : t.phase = m.phase ∨
    (m.phase = .idle ∧ t.phase = .receiving) ∨ (m.phase = .receiving ∧ (t.phase = .idle ∨ t.phase = .transmit)) ∨
    (m.phase = .transmit ∧ t.phase = .flush) ∨ (m.phase = .flush ∧ t.phase = .idle) := by
  cases h with
  | early | append | idle | wait | offer | take | unconfirmed | hold => exact .inl rfl
  | first hp => exact .inr (.inl ⟨hp, rfl⟩)
  | overflow hp | abandon hp => exact .inr (.inr (.inl ⟨hp, .inl rfl⟩))
  | drop hc => exact .inr (.inr (.inl ⟨hc.1, .inl rfl⟩))
  | request hc =>
    refine .inr (.inr (.inl ⟨hc.1, ?_⟩))
    rw [answer, perform_phase]
    split
    · exact .inl rfl
    · exact .inr rfl
  | takeLast hp => exact .inr (.inr (.inr (.inl ⟨hp, rfl⟩)))
  | release hp => exact .inr (.inr (.inr (.inr ⟨hp, rfl⟩)))

end Sys2Proof.Machine

namespace Sys2Proof.Proofs

open Sys2Proof.Machine

/-- Settles O13: neither the other agents nor a move of the engine change the configuration. -/
theorem configurationIsFixedWhileRunning : Obligations.ConfigurationIsFixedWhileRunning := by
  unfold Obligations.ConfigurationIsFixedWhileRunning
  intro s t h hrst
  rcases step_cases h with ⟨c, hreset, -⟩ | ⟨-, -, hmove⟩
  · rw [hrst] at hreset
    cases hreset
  · simpa using hmove.config

/-- Settles O15: a reset tick has a next state, and so has a tick of a legally configured machine, which makes a move. -/
theorem everyTickHasANextState : Obligations.EveryTickHasANextState := by
  unfold Obligations.EveryTickHasANextState
  exact fun _ => exists_step

/-- Settles O23: a reset takes no byte, and a move takes one exactly when it receives. -/
theorem byteConsumedExactlyWhenReceiving : Obligations.ByteConsumedExactlyWhenReceiving := by
  unfold Obligations.ByteConsumedExactlyWhenReceiving
  intro s t h
  rcases step_cases h with ⟨c, hrst, rfl⟩ | ⟨hrst, -, hmove⟩
  · simp [hrst]
  · have hpop := hmove.pop (by simp)
    simp only [beginTick_phase, beginTick_rxQueue] at hpop
    simpa only [hrst, true_and] using hpop

/-- Settles O50: a reset ends in IDLE, and the moves change the phase as the phase table says. -/
theorem phaseTransitionsAreTheListedOnes : Obligations.PhaseTransitionsAreTheListedOnes := by
  unfold Obligations.PhaseTransitionsAreTheListedOnes
  intro s t h hchange
  rcases step_cases h with ⟨c, hrst, rfl⟩ | ⟨-, -, hmove⟩
  · exact .inr (.inr (.inr (.inr ⟨by simp [hrst], rfl⟩)))
  · have hphase := hmove.phase
    rw [beginTick_phase] at hphase
    rcases hphase.resolve_left hchange with h | h | h | h
    · exact .inl h
    · exact .inr (.inl h)
    · exact .inr (.inr (.inl h))
    · exact .inr (.inr (.inr (.inl h)))

/-- Settles O53: only the release leads from FLUSH to IDLE, and it needs `tx_done`, which a truthful transport raises only
when nothing is unsent. -/
theorem noReleaseWithUnsentBytes : Obligations.NoReleaseWithUnsentBytes := by
  unfold Obligations.NoReleaseWithUnsentBytes
  intro s t htruth h hrst hflush hidle
  rcases step_cases h with ⟨c, hreset, -⟩ | ⟨-, -, hmove⟩
  · rw [hrst] at hreset
    cases hreset
  · have hflush' : (beginTick s.input s).phase = .flush := beginTick_phase.trans hflush
    rcases hmove.of_flush hflush' with ⟨-, rfl⟩ | ⟨-, -, rfl⟩ | ⟨hdone, rfl⟩
    · cases hflush'.symm.trans hidle
    · cases hflush'.symm.trans hidle
    · rw [State.doneTruthful, hdone] at htruth
      exact ⟨by simpa using htruth, rfl, rfl, rfl⟩

end Sys2Proof.Proofs
end

section
/-! PROOFS. What a tick may write and strobe: tables (20_memory.md R74, R79; 60_exceptions.md R281) and hooks
(42_dispatcher.md R178). -/

namespace Sys2Proof.Machine

open Sys2Proof.Claims

variable {s t m : State} {i : TickInput} {j : Instr} {y : Action} {u fc : Byte}

/-! ## The request in an answered frame -/

/-- `j` is the request in the completed frame, accepted for this unit. -/
def Accepts (m : State) (j : Instr) : Prop :=
  decode (m.rxBuf.take m.rxLen) = .ok j ∧ (j.unit = 0#8 ∨ m.cfg.unitId = 0xFF#8 ∨ j.unit = m.cfg.unitId)

/-- An accepted frame raises an exception, or performs an action of the request in it. -/
theorem answer_cases {b : Bool} (hv : validate m.cfg.unitId m.frame = .accept b) :
    (∃ u fc e, answer m = raiseExc u fc e (countSilence m)) ∨
    ∃ j y, Accepts m j ∧ Fits j y ∧ answer m = perform j.unit j.fc (.ok y) (countSilence m) := by
  obtain ⟨hlen, hcrc, -, hunit⟩ := validate_eq_accept.1 hv
  cases hplan : framePlan m.frame (countSilence m) with
  | error e => exact .inl ⟨_, _, e, by rw [answer, hplan]; rfl⟩
  | ok y =>
    obtain ⟨j, hbody, hj, hju, hjfc⟩ := framePlan_eq_ok hplan
    have hfor : j.unit = 0#8 ∨ m.cfg.unitId = 0xFF#8 ∨ j.unit = m.cfg.unitId := hju ▸ hunit.imp_left bcast_eq_true_iff.1
    exact .inr ⟨j, y, ⟨decode_eq_ok.2 ⟨hlen, hcrc, hbody⟩, hfor⟩, fits_of_plan hj, by rw [answer, hplan, hju, hjfc]⟩

/-! ## Tables -/

/-- An action of coils changes no register, one of registers no coil, one of a read neither. -/
theorem perform_tables_of_fits (h : Fits j y) :
    ((perform u fc (.ok y) s).coil ≠ s.coil → j.fc = 0x05#8 ∨ j.fc = 0x0F#8) ∧
    ((perform u fc (.ok y) s).hr ≠ s.hr → j.fc = 0x06#8 ∨ j.fc = 0x10#8) := by
  have hcoil : (perform u fc (.ok y) s).coil = _ := perform_coil
  have hhr : (perform u fc (.ok y) s).hr = _ := perform_hr
  cases h with
  | read => exact ⟨fun h => absurd hcoil h, fun h => absurd hhr h⟩
  | coils hfc => exact ⟨fun _ => by simpa using hfc, fun h => absurd hhr h⟩
  | registers hfc => exact ⟨fun h => absurd hcoil h, fun _ => by simpa using hfc⟩

/-- The bus changes no table but in a tick that performs an action of the request in the frame. -/
theorem Move.tables (h : Move i m t) : t.di = m.di ∧ t.ir = m.ir ∧ (t.coil = m.coil ∧ t.hr = m.hr ∨
    Completes m ∧ ∃ j y, Accepts m j ∧ Fits j y ∧ t = perform j.unit j.fc (.ok y) (countSilence m)) := by
  cases h with
  | request hc hv =>
    have hframe := requestFrame_answer m
    refine ⟨hframe.di.trans stored_di, hframe.ir.trans stored_ir, ?_⟩
    rcases answer_cases hv with ⟨u, fc, e, hraise⟩ | haction
    · have hraised := (readFrame_raiseExc u fc e (countSilence m)).request
      rw [hraise]
      exact .inl ⟨hraised.coil, hraised.hr⟩
    · exact .inr ⟨hc, haction⟩
  | _ => exact ⟨rfl, rfl, .inl ⟨rfl, rfl⟩⟩

/-! ## Hooks -/

/-- A strobe in the EXEC tick is that of a read. -/
theorem hook_perform_of_fits (h : Fits j y) (hstrobe : (perform u fc (.ok y) s).out.hook ≠ s.out.hook) :
    s.cfg.hasHook = true ∧ u ≠ 0#8 ∧ j.fc ∈ [0x01#8, 0x02#8, 0x03#8, 0x04#8] := by
  obtain ⟨hhook, hu, y', hy, htime⟩ := hook_perform hstrobe
  cases hy
  cases h with
  | read hfc => exact ⟨hhook, hu, hfc⟩
  | coils | registers => cases htime

/-- A hook that becomes due in the EXEC tick is that of a write. -/
theorem pendHook_perform_of_fits (h : Fits j y) (hdue : (perform u fc (.ok y) s).pendHook ≠ s.pendHook) :
    s.cfg.hasHook = true ∧ u ≠ 0#8 ∧ j.fc ∈ [0x05#8, 0x06#8, 0x0F#8, 0x10#8] := by
  obtain ⟨hhook, hu, y', hy, htime⟩ := pendHook_perform hdue
  cases hy
  cases h with
  | read => cases htime
  | coils hfc => exact ⟨hhook, hu, by simp only [List.mem_cons, List.not_mem_nil, or_false] at hfc ⊢; tauto⟩
  | registers hfc => exact ⟨hhook, hu, by simp only [List.mem_cons, List.not_mem_nil, or_false] at hfc ⊢; tauto⟩

/-- The label of an addressed request that ended normally. -/
theorem perform_events_of_addressed (hu : u ≠ 0#8) : (perform u fc (.ok y) s).events = s.events ++ [.reply fc] := by
  rw [perform_events, stored_events, label, if_neg hu]

/-- Only the release strobes, or an action of the request in the frame. -/
theorem Move.strobe (h : Move i m t) (hout : m.out.hook = none) (hstrobe : t.out.hook ≠ none) :
    (m.phase = .flush ∧ t = Machine.release m) ∨
    (Completes m ∧ ∃ j y, Accepts m j ∧ Fits j y ∧ t = perform j.unit j.fc (.ok y) (countSilence m)) := by
  cases h with
  | release hp => exact .inl ⟨hp, rfl⟩
  | request hc hv =>
    rcases answer_cases hv with ⟨u, fc, e, hraise⟩ | haction
    · have hkept : (answer m).out.hook = m.out.hook := by rw [hraise, (writeFrame_raiseExc u fc e _).out]; rfl
      exact absurd (hkept.trans hout) hstrobe
    · exact .inr ⟨hc, haction⟩
  | _ => exact absurd hout hstrobe

/-- A hook becomes due only by an action of the request in the frame. -/
theorem Move.due (h : Move i m t) (hdue : t.pendHook ≠ none) (hnew : t.pendHook ≠ m.pendHook) :
    Completes m ∧ ∃ j y, Accepts m j ∧ Fits j y ∧ t = perform j.unit j.fc (.ok y) (countSilence m) := by
  cases h with
  | release => exact absurd rfl hdue
  | request hc hv =>
    rcases answer_cases hv with ⟨u, fc, e, hraise⟩ | haction
    · have hkept : (answer m).pendHook = m.pendHook := by rw [hraise, (readFrame_raiseExc u fc e _).pendHook]; rfl
      exact absurd hkept hnew
    · exact ⟨hc, haction⟩
  | _ => exact absurd rfl hnew

end Sys2Proof.Machine

namespace Sys2Proof.Proofs

open Sys2Proof.Machine

/-- Settles O47: a reset touches no table, and a move that changes one performs an action of the accepted request, which
its label names. -/
theorem tablesChangeOnlyByASuccessfulWrite : Obligations.TablesChangeOnlyByASuccessfulWrite := by
  unfold Obligations.TablesChangeOnlyByASuccessfulWrite
  rintro s m t rfl h
  rcases step_cases h with ⟨c, -, rfl⟩ | ⟨-, -, hmove⟩
  · exact ⟨rfl, rfl, by rintro (h | h) <;> exact absurd rfl h⟩
  · obtain ⟨hdi, hir, ⟨hcoil, hhr⟩ | ⟨hc, j, y, ⟨hdecode, hunit⟩, hfits, rfl⟩⟩ := hmove.tables
    · exact ⟨hdi, hir, by rintro (h | h) <;> contradiction⟩
    · obtain ⟨hcoil, hhr⟩ := perform_tables_of_fits (u := j.unit) (fc := j.fc)
        (s := countSilence (beginTick s.input s)) hfits
      refine ⟨hdi, hir, fun _ => ⟨hc, j, hdecode, hcoil, hhr, hunit, ?_⟩⟩
      rw [perform_events, stored_events, label]
      split
      · exact .inr rfl
      · exact .inl rfl

/-- Settles O48: in the EXEC tick only a normal end of an addressed request strobes or makes due, a read the one and a write
the other; in every other tick only the release strobes. -/
theorem hookOnlyForAddressedSuccess : Obligations.HookOnlyForAddressedSuccess := by
  unfold Obligations.HookOnlyForAddressedSuccess
  refine ⟨fun i s t h hchange => ?exec, ?tick⟩
  case exec =>
    rw [exec_eq_perform] at h
    cases h
    have hend : s.cfg.hasHook = true ∧ i.unit ≠ 0#8 ∧ ∃ y, plan i s = .ok y := by
      rcases hchange with hchange | hchange
      · obtain ⟨hhook, hu, y, hy, -⟩ := hook_perform hchange
        exact ⟨hhook, hu, y, hy⟩
      · obtain ⟨hhook, hu, y, hy, -⟩ := pendHook_perform hchange
        exact ⟨hhook, hu, y, hy⟩
    obtain ⟨hhook, hu, y, hy⟩ := hend
    exact ⟨hhook, hu, by rw [hy, perform_events_of_addressed hu]⟩
  case tick =>
    rintro s m t ⟨-, -, -, hhook, -⟩ rfl h
    rcases step_cases h with ⟨c, -, rfl⟩ | ⟨hrst, -, hmove⟩
    · exact ⟨fun hstrobe => absurd (by simp) hstrobe, fun hdue => absurd rfl hdue⟩
    · refine ⟨fun hstrobe => ?strobe, fun hdue hnew => ?due⟩
      case strobe =>
        rcases hmove.strobe (by simp) hstrobe with ⟨hp, rfl⟩ | ⟨hc, j, y, ⟨hdecode, -⟩, hfits, rfl⟩
        · have hdue : s.pendHook ≠ none := by simpa using hstrobe
          exact ⟨by simpa using hhook.2 hdue, hrst, .inl ⟨hp, rfl, rfl, rfl⟩⟩
        · obtain ⟨hhas, hu, hfc⟩ := hook_perform_of_fits hfits (s := countSilence (beginTick s.input s))
            (by simpa using hstrobe)
          exact ⟨hhas, hrst, .inr ⟨hc, j, hdecode, hu, hfc, perform_events_of_addressed hu⟩⟩
      case due =>
        obtain ⟨hc, j, y, ⟨hdecode, -⟩, hfits, rfl⟩ := hmove.due hdue hnew
        obtain ⟨hhas, hu, hfc⟩ := pendHook_perform_of_fits hfits (s := countSilence (beginTick s.input s)) hnew
        exact ⟨hhas, hrst, hc, j, hdecode, hu, hfc, perform_events_of_addressed hu⟩

end Sys2Proof.Proofs
end

section
/-! PROOFS. The invariant of the machine (10_state.md R22 to R29, R34, R37): reset establishes it, and the other agents, a
reset and every move of the engine keep it. -/

namespace Sys2Proof.Machine

open Sys2Proof.Claims

variable {s t m : State} {i : TickInput}

/-! ## The registers after an answered frame -/

/-- The longest reply is 255 bytes (10_state.md R25). -/
theorem replyBody_length_le (u fc : Byte) (m : State) :
    (replyBody u fc (framePlan m.frame (countSilence m))).length ≤ 253 := by
  cases hplan : framePlan m.frame (countSilence m) with
  | error e => simp [replyBody]
  | ok y =>
    obtain ⟨j, -, hj, -⟩ := framePlan_eq_ok hplan
    cases fits_of_plan hj with
    | read _ hp =>
      simp only [replyBody, readAction, List.length_cons]
      omega
    | coils | registers => simp [replyBody, writeAction, writeReply]

/-- An answered frame ends silently, or loads a reply of at most 255 bytes. -/
theorem answer_registers (m : State) : EndsSilently (countSilence m) (answer m) ∨
    ∃ body : List Byte, body.length ≤ 253 ∧ Loads body (answerStores m) (answer m) := by
  by_cases hu : byteAt m.frame 0 = 0#8
  · exact .inl ⟨_, _, writesTables_stored _ _, perform_bcast hu⟩
  · exact .inr ⟨_, replyBody_length_le _ _ m, loads_perform hu⟩

theorem EndsSilently.rxLen (h : EndsSilently s t) : t.rxLen = 0 := by
  obtain ⟨e, w, -, rfl⟩ := h
  rfl

/-- A reply of at most 255 bytes leaves `tx_buf` its length. -/
theorem Loads.txBuf_length {body : List Byte} (h : Loads body s t) (hbody : body.length ≤ 253)
    (hbuf : 255 ≤ s.txBuf.length) : t.txBuf.length = s.txBuf.length := by
  rw [h.txBuf, List.length_append, List.length_drop, withCrc_length]
  omega

/-! ## The moves keep the invariant -/

theorem txBufCap_of_legalBuild {b : Build} (h : legalBuild b = true) : 9 ≤ b.rxBufCap ∧ 255 ≤ b.txBufCap := by
  simp only [legalBuild, Bool.and_eq_true, decide_eq_true_eq] at h
  exact ⟨h.1.1, h.2⟩

theorem Move.buffersOk (h : Move i m t) (hbuf : m.BuffersOk) : t.BuffersOk := by
  obtain ⟨hbuild, hrx, htx⟩ := hbuf
  cases h with
  | first | append | overflow => exact ⟨hbuild, (List.length_set ..).trans hrx, htx⟩
  | request =>
    have hframe := requestFrame_answer m
    have hcap : (answer m).build = m.build := hframe.build.trans stored_build
    have hrx' : (answer m).rxBuf = m.rxBuf := hframe.rxBuf.trans stored_rxBuf
    have htx' : (answer m).txBuf.length = m.txBuf.length := by
      rcases answer_registers m with hsilent | ⟨body, hbody, hloads⟩
      · rw [hsilent.noReply.1]
        rfl
      · have hroom := (txBufCap_of_legalBuild hbuild).2
        rw [hloads.txBuf_length hbody (by rw [stored_txBuf]; exact hroom.trans_eq htx.symm), stored_txBuf]
        rfl
    exact ⟨by rwa [hcap], by rw [hrx', hcap, hrx], by rw [htx', hcap, htx]⟩
  | _ => exact ⟨hbuild, hrx, htx⟩

theorem Move.indicesOk (h : Move i m t) (hbuf : m.BuffersOk) (hidx : m.IndicesOk) (hphase : m.PhaseOk) : t.IndicesOk := by
  obtain ⟨hrx, htx, hle⟩ := hidx
  obtain ⟨-, -, htransmit, -⟩ := hphase
  have hcap : 9 ≤ m.build.rxBufCap := (txBufCap_of_legalBuild hbuf.1).1
  cases h with
  | first => exact ⟨show 1 < m.build.rxBufCap by omega, htx, hle⟩
  | append _ _ hroom => exact ⟨show m.rxLen + 1 < m.build.rxBufCap by omega, htx, hle⟩
  | overflow | abandon | drop | release => exact ⟨show 0 < m.build.rxBufCap by omega, htx, hle⟩
  | take hp | takeLast hp => exact ⟨hrx, htx, (htransmit hp).1⟩
  | request =>
    have hbuild : (answer m).build = m.build := (requestFrame_answer m).build.trans stored_build
    rcases answer_registers m with hsilent | ⟨body, hbody, hloads⟩
    · obtain ⟨-, hlen, hidx, -⟩ := hsilent.noReply
      exact ⟨by rw [hsilent.rxLen, hbuild]; omega, by rw [hlen]; exact htx, by rw [hlen, hidx]; exact hle⟩
    · refine ⟨?_, ?_, ?_⟩
      · rw [hloads.rxLen, stored_rxLen, hbuild]
        exact hrx
      · rw [hloads.txLen, withCrc_length]
        omega
      · rw [hloads.txIdx]
        exact Nat.zero_le _
  | _ => exact ⟨hrx, htx, hle⟩

theorem Move.phaseOk (h : Move i m t) (hphase : m.PhaseOk) : t.PhaseOk := by
  obtain ⟨hidle, hreceiving, htransmit, hflush⟩ := hphase
  cases h with
  | first hp => simp [State.PhaseOk, firstByte, hidle hp]
  | append hp => simp [State.PhaseOk, hp, hreceiving hp]
  | overflow hp | abandon hp => simp [State.PhaseOk, silently, hreceiving hp]
  | drop hc => simp [State.PhaseOk, silently, hreceiving hc.1]
  | take hp _ hmore =>
    have hnext : m.txIdx + 1 < m.txLen := Nat.lt_of_le_of_ne (htransmit hp).1 hmore
    simp [State.PhaseOk, hp, htransmit hp, hnext]
  | takeLast hp _ hlast => simp [State.PhaseOk, hlast, htransmit hp]
  | request hc =>
    rcases answer_registers m with hsilent | ⟨body, hbody, hloads⟩
    · obtain ⟨-, -, -, hen, hp⟩ := hsilent.noReply
      simp [State.PhaseOk, hp, hsilent.rxLen, hen, hreceiving hc.1]
    · simp [State.PhaseOk, hloads.phase, hloads.txIdx, hloads.txLen, hloads.txEnR]
  | release => simp [State.PhaseOk]
  | early | idle | wait | offer | unconfirmed | hold => exact ⟨hidle, hreceiving, htransmit, hflush⟩

theorem Move.hookOk (h : Move i m t) (hhook : m.HookOk) : t.HookOk := by
  obtain ⟨hnone, hcfg⟩ := hhook
  cases h with
  | first hp => exact ⟨fun _ => hnone (.inl hp), hcfg⟩
  | overflow hp | abandon hp => exact ⟨fun _ => hnone (.inr hp), hcfg⟩
  | drop hc => exact ⟨fun _ => hnone (.inr hc.1), hcfg⟩
  | request hc hv =>
    have hdue (h : (answer m).pendHook ≠ none) : m.cfg.hasHook = true ∧ byteAt m.frame 0 ≠ 0#8 := by
      have hnew : (answer m).pendHook ≠ (countSilence m).pendHook := by rwa [countSilence_pendHook, hnone (.inr hc.1)]
      obtain ⟨hhas, hu, -⟩ := pendHook_perform hnew
      exact ⟨hhas, hu⟩
    refine ⟨fun hp => ?_, fun h => ?_⟩
    · by_contra h
      rw [answer, perform_phase, if_neg (hdue h).2] at hp
      simp at hp
    · rw [(requestFrame_answer m).cfg, stored_cfg]
      exact (hdue h).1
  | takeLast => exact ⟨by simp, hcfg⟩
  | release => exact ⟨fun _ => rfl, fun h => absurd rfl h⟩
  | _ => exact ⟨hnone, hcfg⟩

theorem Move.timingOk (h : Move i m t) (htiming : m.TimingOk) : t.TimingOk := by
  obtain ⟨hcfg, h15, h35, -⟩ := h.config
  rwa [State.TimingOk, hcfg, h15, h35]

theorem Move.tablesOk (h : Move i m t) (htables : m.TablesOk) : t.TablesOk := by
  cases h with
  | request =>
    have hframe := requestFrame_answer m
    rw [State.TablesOk, memoryWf_congr hframe.coil hframe.di hframe.hr hframe.ir]
    exact (writesTables_stored _ _).wf htables
  | _ => exact htables

/-- Every move of the engine keeps the invariant. -/
theorem Move.inv (h : Move i m t) (hinv : m.Inv) : t.Inv := by
  obtain ⟨hbuf, hidx, hphase, hhook, htiming, htables⟩ := hinv
  exact ⟨h.buffersOk hbuf, h.indicesOk hbuf hidx hphase, h.phaseOk hphase, h.hookOk hhook, h.timingOk htiming,
    h.tablesOk htables⟩

/-! ## The other agents and reset keep the invariant -/

/-- The other agents write no register, and keep the tables canonical. -/
theorem beginTick_inv (hinv : s.Inv) : (beginTick i s).Inv := by
  obtain ⟨hbuf, hidx, hphase, hhook, htiming, htables⟩ := hinv
  exact ⟨by simpa [State.BuffersOk] using hbuf, by simpa [State.IndicesOk] using hidx,
    by simpa [State.PhaseOk] using hphase, by simpa [State.HookOk] using hhook, by simpa [State.TimingOk] using htiming,
    (beginTick_eq i s).2 htables⟩

/-- A reset establishes all of the invariant but what the build and the other agents answer for. -/
theorem resetTick_inv (c : Cfg) (hbuf : m.BuffersOk) (htables : m.TablesOk) : (resetTick c m).Inv := by
  have hcap : 9 ≤ m.build.rxBufCap := (txBufCap_of_legalBuild hbuf.1).1
  refine ⟨⟨hbuf.1, by simp [resetTick], by simp [resetTick]⟩, ⟨show 0 < m.build.rxBufCap by omega, by simp, by simp⟩, ?_, ?_,
    ⟨rfl, rfl⟩, htables⟩
  · simp [State.PhaseOk]
  · simp [State.HookOk]

/-- Every step keeps the invariant. -/
theorem step_inv (hinv : s.Inv) (h : step s = .next t) : t.Inv := by
  have hm : (beginTick s.input s).Inv := beginTick_inv hinv
  rcases step_cases h with ⟨c, -, rfl⟩ | ⟨-, -, hmove⟩
  · obtain ⟨hbuf, -, -, -, -, htables⟩ := hm
    exact resetTick_inv c hbuf htables
  · exact hmove.inv hm

end Sys2Proof.Machine

namespace Sys2Proof.Proofs

open Sys2Proof.Machine

/-- Settles O58: the other agents keep the invariant, and so does whatever the engine does then, a reset or a move. -/
theorem stepKeepsTheInvariant : Obligations.StepKeepsTheInvariant := by
  unfold Obligations.StepKeepsTheInvariant
  intro s t
  exact step_inv

/-- Settles O57: each clause is evaluated at the reset values. -/
theorem resetMeetsTheInvariant : Obligations.ResetMeetsTheInvariant := by
  unfold Obligations.ResetMeetsTheInvariant
  decide +kernel

/-- Settles O54: the state after the step meets the invariant, which ties `tx_en_r` to the phase. -/
theorem transmitEnableEnvelope : Obligations.TransmitEnableEnvelope := by
  unfold Obligations.TransmitEnableEnvelope
  intro s t hinv h
  obtain ⟨-, -, ⟨hidle, hreceiving, htransmit, hflush⟩, -⟩ := step_inv hinv h
  cases hphase : t.phase with
  | idle => simp [State.txEn, (hidle hphase).2]
  | receiving => simp [State.txEn, (hreceiving hphase).2]
  | transmit => simp [State.txEn, (htransmit hphase).2]
  | flush => simp [State.txEn, (hflush hphase).2]

end Sys2Proof.Proofs
end

section
/-! PROOFS. Runs of scheduled ticks: the frame that is held until `T15` (40_frame_receiver.md R141), the reply that is handed
over whole (47_response_builder.md R235, R240), and the two hangs (70_reset_and_hazards.md R315). -/

namespace Sys2Proof.Machine

open Sys2Proof.Claims

variable {s t m : State} {i : TickInput} {is rest : List TickInput}

/-! ## One scheduled tick -/


theorem input_of_env (h : s.env = i :: rest) : s.input = i := by
  rw [State.input, h]

theorem beginTick_env_of_env (henv : s.env = i :: rest) : (beginTick i s).env = rest := by
  rw [beginTick_env, henv]
  rfl

/-- No move changes the schedule or whether the configuration is legal. -/
theorem Move.env (h : Move i m t) : t.env = m.env := by
  cases h with
  | request => exact (requestFrame_answer m).env.trans stored_env
  | _ => rfl

theorem Move.legal (h : Move i m t) : t.legal = m.legal := by
  obtain ⟨hcfg, -, -, hbuild⟩ := h.config
  rw [State.legal, hcfg, hbuild, State.legal]

/-- A tick of the schedule without reset: the other agents act as scheduled, the engine makes a move, and the rest of the
schedule is left. -/
theorem scheduled_move (henv : s.env = i :: rest) (hlegal : s.legal = true) (hrst : i.rst = none) :
    ∃ t, step s = .next t ∧ Move i (beginTick i s) t ∧ t.env = rest ∧ t.legal = true := by
  have hin := input_of_env henv
  obtain ⟨t, hstep, hmove⟩ := step_move hlegal (hin.symm ▸ hrst)
  rw [hin] at hmove
  exact ⟨t, hstep, hmove, hmove.env.trans (beginTick_env_of_env henv), hmove.legal.trans (beginTick_legal.trans hlegal)⟩

/-- The state the engine steps from in a quiet scheduled tick. -/
theorem ready_of_env (henv : s.env = i :: rest) (hlegal : s.legal = true) (hrst : i.rst = none) :
    Ready s (beginTick i s) := by
  have hin := input_of_env henv
  exact ⟨by rw [hin], by rw [hin, hrst], beginTick_legal.trans hlegal⟩

/-! ## The frame that is held -/

/-- Silent ticks before the `T15`-th count the silence and hold the frame. -/
theorem frame_held (is : List TickInput) (henv : s.env = is ++ rest) (hquiet : ∀ i ∈ is, Quiet i) (hlegal : s.legal = true)
    (hphase : s.phase = .receiving) (hqueue : s.rxQueue = []) (hlen : 4 ≤ s.rxLen)
    (hearly : s.sil.toNat + is.length < s.t15.toNat) :
    ∃ t : State, Sys2Proof.core.run is.length s = .next t ∧ t.phase = .receiving ∧ t.sil.toNat = s.sil.toNat + is.length ∧
      t.rxLen = s.rxLen ∧ t.rxBuf = s.rxBuf ∧ t.rxQueue = [] ∧ t.events = s.events ∧
      t.t15 = s.t15 ∧ t.legal = true ∧ t.env = rest := by
  induction is generalizing s with
  | nil => exact ⟨s, rfl, hphase, rfl, rfl, rfl, hqueue, rfl, rfl, hlegal, henv⟩
  | cons i is ih =>
    obtain ⟨hrst, harrivals⟩ := hquiet i List.mem_cons_self
    have hshort := s.t15.isLt
    rw [List.length_cons] at hearly
    have hstep := step_of_unfinished (ready_of_env henv hlegal hrst) (beginTick_phase.trans hphase)
      (by simp [hqueue, harrivals]) (by rwa [beginTick_rxLen]) (by rw [beginTick_sil, beginTick_t15]; omega)
    have hcount : (satIncr s.sil).toNat = s.sil.toNat + 1 := by
      have hn : (satIncr s.sil).toNat = min (s.sil.toNat + 1) (2 ^ 32 - 1) := counted_satIncr s
      omega
    obtain ⟨t, hrun, hp, hsil, hl, hb, hq, he, h15, hg, henv'⟩ := ih (s := countSilence (beginTick i s))
      (beginTick_env_of_env henv) (fun j hj => hquiet j (List.mem_cons_of_mem i hj)) (beginTick_legal.trans hlegal)
      (beginTick_phase.trans hphase) (by simp [hqueue, harrivals]) (by simpa using hlen)
      (by simp only [countSilence_sil, beginTick_sil, hcount, countSilence_t15, beginTick_t15]; omega)
    refine ⟨t, (run_succ hstep).trans hrun, hp, ?_, by simpa using hl, by simpa using hb, hq, by simpa using he,
      by simpa using h15, hg, henv'⟩
    rw [hsil, countSilence_sil, beginTick_sil, hcount, List.length_cons]
    omega

/-! ## The two hangs -/

/-- While `tx_ready` stays 0 the engine stays in TRANSMIT. -/
theorem transmit_hangs (is : List TickInput) (henv : s.env = is ++ rest)
    (hmute : ∀ i ∈ is, Undisturbed i ∧ i.txReady = false) (hlegal : s.legal = true) (hphase : s.phase = .transmit) :
    ∃ t : State, Sys2Proof.core.run is.length s = .next t ∧ t.phase = .transmit ∧ t.txEnR = s.txEnR ∧ t.txIdx = s.txIdx ∧
      t.rxQueue = s.rxQueue ++ (is.map TickInput.arrivals).flatten := by
  induction is generalizing s with
  | nil => exact ⟨s, rfl, hphase, rfl, rfl, by simp⟩
  | cons i is ih =>
    obtain ⟨hrst, hno⟩ := hmute i List.mem_cons_self
    obtain ⟨t₁, hstep, hmove, henv₁, hlegal₁⟩ := scheduled_move henv hlegal hrst
    rcases hmove.of_transmit (beginTick_phase.trans hphase) with ⟨-, ht₁⟩ | ⟨hyes, -⟩ | ⟨hyes, -⟩
    · obtain ⟨t, hrun, hp, hen, hidx, hq⟩ := ih henv₁ (fun j hj => hmute j (List.mem_cons_of_mem i hj)) hlegal₁
        (by simpa [ht₁] using hphase)
      exact ⟨t, (run_succ hstep).trans hrun, hp, by simpa [ht₁] using hen, by simpa [ht₁] using hidx,
        by simpa [ht₁] using hq⟩
    · cases hno.symm.trans hyes
    · cases hno.symm.trans hyes

/-- While `tx_done` stays 0 the engine stays in FLUSH. -/
theorem flush_hangs (is : List TickInput) (henv : s.env = is ++ rest)
    (hmute : ∀ i ∈ is, Undisturbed i ∧ i.txDone = false) (hlegal : s.legal = true) (hphase : s.phase = .flush) :
    ∃ t : State, Sys2Proof.core.run is.length s = .next t ∧ t.phase = .flush ∧ t.txEnR = s.txEnR ∧
      t.rxQueue = s.rxQueue ++ (is.map TickInput.arrivals).flatten := by
  induction is generalizing s with
  | nil => exact ⟨s, rfl, hphase, rfl, by simp⟩
  | cons i is ih =>
    obtain ⟨hrst, hno⟩ := hmute i List.mem_cons_self
    obtain ⟨t₁, hstep, hmove, henv₁, hlegal₁⟩ := scheduled_move henv hlegal hrst
    rcases hmove.of_flush (beginTick_phase.trans hphase) with ⟨-, ht₁⟩ | ⟨hyes, -⟩ | ⟨hyes, -⟩
    · obtain ⟨t, hrun, hp, hen, hq⟩ := ih henv₁ (fun j hj => hmute j (List.mem_cons_of_mem i hj)) hlegal₁
        (by simpa [ht₁] using hphase)
      exact ⟨t, (run_succ hstep).trans hrun, hp, by simpa [ht₁] using hen, by simpa [ht₁] using hq⟩
    · cases hno.symm.trans hyes
    · cases hno.symm.trans hyes

/-! ## The reply that is handed over -/

/-- The bytes of the reply that are still to be handed over. -/
def unsent (s : State) : List Byte := (s.txBuf.take s.txLen).drop s.txIdx

/-- The byte that is offered is the first of them. -/
theorem unsent_eq_cons (hidx : s.txIdx < s.txLen) (hbuf : s.txLen ≤ s.txBuf.length) :
    unsent s = byteAt s.txBuf s.txIdx :: (s.txBuf.take s.txLen).drop (s.txIdx + 1) := by
  have hlt : s.txIdx < (s.txBuf.take s.txLen).length := by
    rw [List.length_take]
    omega
  have hbyte : byteAt s.txBuf s.txIdx = (s.txBuf.take s.txLen)[s.txIdx] := by
    simp [byteAt, show s.txIdx < s.txBuf.length by omega]
  rw [unsent, List.drop_eq_getElem_cons hlt, hbyte]

/-- What has left of a queue before more joined it has left of the whole. -/
theorem drop_append_eq (pending more : List Byte) (n : Nat) :
    ∃ k ≤ n, pending.drop n ++ more = (pending ++ more).drop k := by
  refine ⟨min n pending.length, Nat.min_le_left _ _, ?_⟩
  rw [List.drop_append_of_le_length (Nat.min_le_right _ _)]
  congr 1
  rcases Nat.le_total n pending.length with h | h
  · rw [Nat.min_eq_left h]
  · rw [Nat.min_eq_right h, List.drop_length, List.drop_of_length_le h]

/-- A ready transport is handed every unsent byte, in order, one a tick. -/
theorem reply_handed_over (is : List TickInput) (henv : s.env = is ++ rest)
    (hready : ∀ i ∈ is, Undisturbed i ∧ i.txReady = true) (hlegal : s.legal = true) (hphase : s.phase = .transmit)
    (hidx : s.txIdx < s.txLen) (hbuf : s.txLen ≤ s.txBuf.length) (hlen : is.length = s.txLen - s.txIdx) :
    ∃ t : State, Sys2Proof.core.run is.length s = .next t ∧ t.phase = .flush ∧ t.txIdx = t.txLen ∧ t.txEnR = s.txEnR ∧
      (∃ k, k ≤ (is.map TickInput.txLeft).sum ∧ t.txPending = (s.txPending ++ unsent s).drop k) ∧
      t.rxQueue = s.rxQueue ++ (is.map TickInput.arrivals).flatten ∧ t.events = s.events := by
  induction is generalizing s with
  | nil =>
    rw [List.length_nil] at hlen
    omega
  | cons i is ih =>
    obtain ⟨hrst, hyes⟩ := hready i List.mem_cons_self
    obtain ⟨t₁, hstep, hmove, henv₁, hlegal₁⟩ := scheduled_move henv hlegal hrst
    have hunsent := unsent_eq_cons hidx hbuf
    obtain ⟨k, hk, hleft⟩ := drop_append_eq s.txPending (unsent s) i.txLeft
    rw [List.length_cons] at hlen
    rcases hmove.of_transmit (beginTick_phase.trans hphase) with ⟨hno, -⟩ | ⟨-, hmore, ht₁⟩ | ⟨-, hlast, ht₁⟩
    · cases hno.symm.trans hyes
    · rw [beginTick_txIdx, beginTick_txLen] at hmore
      have hidx₁ : t₁.txIdx = s.txIdx + 1 := by simp [ht₁]
      have hlen₁ : t₁.txLen = s.txLen := by simp [ht₁]
      have hunsent₁ : t₁.txPending ++ unsent t₁ = s.txPending.drop i.txLeft ++ unsent s := by
        rw [hunsent]
        simp [ht₁, unsent]
      obtain ⟨t, hrun, hp, hend, hen, ⟨k', hk', hpend⟩, hq, he⟩ := ih henv₁
        (fun j hj => hready j (List.mem_cons_of_mem i hj)) hlegal₁ (by simpa [ht₁] using hphase)
        (by omega) (by simpa [ht₁] using hbuf) (by omega)
      refine ⟨t, (run_succ hstep).trans hrun, hp, hend, by simpa [ht₁] using hen, ⟨k + k', ?_, ?_⟩,
        by simpa [ht₁] using hq, by simpa [ht₁] using he⟩
      · rw [List.map_cons, List.sum_cons]
        omega
      · rw [← List.drop_drop, ← hleft, ← hunsent₁, hpend]
    · rw [beginTick_txIdx, beginTick_txLen] at hlast
      obtain rfl : is = [] := List.length_eq_zero_iff.1 (by omega)
      refine ⟨t₁, run_succ hstep, by rw [ht₁], by simpa [ht₁] using hlast, by simp [ht₁], ⟨k, by simpa using hk, ?_⟩,
        by simp [ht₁], by simp [ht₁]⟩
      rw [← hleft, hunsent]
      simp [ht₁, hlast]

end Sys2Proof.Machine

namespace Sys2Proof.Proofs

open Sys2Proof.Machine

/-- Settles O24: the silent ticks before the `T15`-th hold the frame, and in the `T15`-th the counted silence is `T15`. -/
theorem frameHeldUntilT15 : Obligations.FrameHeldUntilT15 := by
  unfold Obligations.FrameHeldUntilT15
  intro is rest s henv hquiet hlegal hphase hqueue hlen hsil hearly
  obtain ⟨t, hrun, hp, hcount, hl, hb, hq, he, h15, hg, henv'⟩ := frame_held is henv hquiet hlegal hphase hqueue hlen
    (by simpa [hsil] using hearly)
  have hcount : t.sil.toNat = is.length := by simpa [hsil] using hcount
  refine ⟨t, hrun, hp, hcount, hl, hb, hq, he, fun j after hlast hrest hj => ?_⟩
  obtain ⟨hrst, harrivals⟩ := hj
  refine ⟨beginTick j t, ready_of_env (henv'.trans hrest) hg hrst, beginTick_phase.trans hp, by simp [hq, harrivals],
    by simpa [hl] using hlen, ?_⟩
  have hfits := s.t15.isLt
  rw [beginTick_t15, h15, beginTick_sil, hcount]
  omega

/-- Settles O55: every tick hands the offered byte over, and the last one starts FLUSH. -/
theorem wholeReplyIsHandedOver : Obligations.WholeReplyIsHandedOver := by
  unfold Obligations.WholeReplyIsHandedOver
  intro is rest s henv hready hlegal hinv hphase hlen
  obtain ⟨⟨hbuild, -, htxbuf⟩, ⟨-, htxlen, -⟩, ⟨-, -, htransmit, -⟩, -⟩ := hinv
  obtain ⟨hidx, hen⟩ := htransmit hphase
  have hcap := (txBufCap_of_legalBuild hbuild).2
  obtain ⟨t, hrun, hp, hend, hen', hpend, hq, he⟩ :=
    reply_handed_over is henv hready hlegal hphase hidx (by omega) hlen
  exact ⟨t, hrun, hp, hend, hen'.trans hen, hpend, hq, he⟩

/-- Settles O56: a tick without `tx_ready` only offers, a tick without `tx_done` only restarts `hold`. -/
theorem transportSilenceHangsVisibly : Obligations.TransportSilenceHangsVisibly := by
  unfold Obligations.TransportSilenceHangsVisibly
  intro is rest s henv hquiet hlegal
  exact ⟨fun hphase hno => transmit_hangs is henv (fun i hi => ⟨hquiet i hi, hno i hi⟩) hlegal hphase,
    fun hphase hno => flush_hangs is henv (fun i hi => ⟨hquiet i hi, hno i hi⟩) hlegal hphase⟩

end Sys2Proof.Proofs
end

section
/-! PROOFS. Every transaction ends (60_exceptions.md R279): the buffered bytes or the silence grow until RECEIVING is left,
a transport that meets its duties takes one byte of the reply after the other, and once it has confirmed the last it keeps
confirming until the release. -/

namespace Sys2Proof.Machine

open Sys2Proof.Claims

variable {s₀ s t u m : State} {i : TickInput}

theorem rxLen_lt_of_inv (h : s.Inv) : s.rxLen < s.build.rxBufCap := by
  obtain ⟨-, ⟨hlen, -, -⟩, -⟩ := h
  exact hlen

theorem txIdx_lt_of_inv (h : s.Inv) (hphase : s.phase = .transmit) : s.txIdx < s.txLen := by
  obtain ⟨-, -, ⟨-, -, htransmit, -⟩, -⟩ := h
  exact (htransmit hphase).1

/-! ## Within a transaction -/

/-- IDLE is reached from `s`. -/
def EndsInIdle (s : State) : Prop := ∃ t, Reach s t ∧ t.phase = .idle

theorem endsInIdle_of_idle (h : s.phase = .idle) : EndsInIdle s := ⟨s, .here s, h⟩

theorem EndsInIdle.tick (h : EndsInIdle m) (hstep : step s = .next m) : EndsInIdle s := by
  obtain ⟨t, hreach, hidle⟩ := h
  exact ⟨t, .tick hstep hreach, hidle⟩

theorem Busy.step (h : Busy s t) (hstep : step t = .next m) (hm : m.phase ≠ .idle) : Busy s m := by
  induction h with
  | here hs => exact .tick hs hstep (.here hm)
  | tick hs hnext _ ih => exact .tick hs hnext (ih hstep)

/-- `t` is a state of the transaction that `s₀` is in, legally configured and meeting the invariant. -/
structure Within (s₀ t : State) : Prop where
  busy : Busy s₀ t
  legal : t.legal = true
  inv : t.Inv

/-- Within a transaction every tick ends it, or is a move of the engine that stays within it. -/
theorem Within.step_cases (h : Within s₀ t) (hstep : step t = .next m) :
    m.phase = .idle ∨ Within s₀ m ∧ Move t.input (beginTick t.input t) m := by
  rcases Machine.step_cases hstep with ⟨c, -, rfl⟩ | ⟨-, -, hmove⟩
  · exact .inl rfl
  · by_cases hm : m.phase = .idle
    · exact .inl hm
    · exact .inr ⟨⟨h.busy.step hstep hm, hmove.legal.trans (beginTick_legal.trans h.legal), step_inv h.inv hstep⟩, hmove⟩

/-- To end, it suffices that every move that stays within the transaction leads to a state that ends. -/
theorem Within.endsInIdle (h : Within s₀ t)
    (hmoves : ∀ m, Within s₀ m → Move t.input (beginTick t.input t) m → EndsInIdle m) : EndsInIdle t := by
  obtain ⟨m, hstep⟩ := exists_step (.inl h.legal)
  refine EndsInIdle.tick ?_ hstep
  rcases h.step_cases hstep with hidle | ⟨hm, hmove⟩
  · exact endsInIdle_of_idle hidle
  · exact hmoves m hm hmove

/-! ## FLUSH -/

/-- A truthful transport with nothing left to send confirms. -/
theorem txDone_of_drained (htruth : TruthDuty s₀) (h : Within s₀ t) (hdrained : t.txPending = []) :
    t.input.txDone = true := by
  simpa [State.doneTruthful, hdrained] using htruth t h.busy

/-- Once nothing is unsent, every tick of FLUSH is confirmed and counts `hold`, until the release. -/
theorem endsInIdle_of_drained (htruth : TruthDuty s₀) (n : Nat) (h : Within s₀ t) (hphase : t.phase = .flush)
    (hdrained : t.txPending = []) (hn : t.cfg.flushHold.toNat - t.hold.toNat = n) : EndsInIdle t := by
  induction n generalizing t with
  | zero =>
    refine h.endsInIdle fun m hm hmove => ?_
    rcases hmove.of_flush (beginTick_phase.trans hphase) with ⟨hno, -⟩ | ⟨-, hheld, -⟩ | ⟨-, rfl⟩
    · cases hno.symm.trans (txDone_of_drained htruth h hdrained)
    · rw [beginTick_hold, beginTick_cfg] at hheld
      omega
    · exact endsInIdle_of_idle rfl
  | succ n ih =>
    refine h.endsInIdle fun m hm hmove => ?_
    rcases hmove.of_flush (beginTick_phase.trans hphase) with ⟨hno, -⟩ | ⟨-, hheld, rfl⟩ | ⟨-, rfl⟩
    · cases hno.symm.trans (txDone_of_drained htruth h hdrained)
    · rw [beginTick_hold, beginTick_cfg] at hheld
      have hcount := toNat_succ_of_lt hheld
      refine ih hm (beginTick_phase.trans hphase) (by simp [hdrained]) ?_
      simp only [beginTick_hold, beginTick_cfg]
      omega
    · exact endsInIdle_of_idle rfl

/-- The confirmation that the transport owes drains its queue, for it is truthful. -/
theorem endsInIdle_of_confirmed (htruth : TruthDuty s₀) (hreach : Reach t u)
    (hu : u.phase ≠ .flush ∨ u.input.txDone = true) (h : Within s₀ t) (hphase : t.phase = .flush) : EndsInIdle t := by
  induction hreach with
  | here t =>
    have hdone : t.input.txDone = true := hu.resolve_left (absurd hphase)
    have hdrained : t.txPending.drop t.input.txLeft = [] := by
      have := htruth t h.busy
      rw [State.doneTruthful, hdone] at this
      simpa using this
    refine h.endsInIdle fun m hm hmove => ?_
    rcases hmove.of_flush (beginTick_phase.trans hphase) with ⟨hno, -⟩ | ⟨-, hheld, rfl⟩ | ⟨-, rfl⟩
    · cases hno.symm.trans hdone
    · exact endsInIdle_of_drained htruth _ hm (beginTick_phase.trans hphase) (by simpa using hdrained) rfl
    · exact endsInIdle_of_idle rfl
  | @tick t m u hstep _ ih =>
    refine EndsInIdle.tick ?_ hstep
    rcases h.step_cases hstep with hidle | ⟨hm, hmove⟩
    · exact endsInIdle_of_idle hidle
    · rcases hmove.of_flush (beginTick_phase.trans hphase) with ⟨-, rfl⟩ | ⟨-, -, rfl⟩ | ⟨-, rfl⟩
      · exact ih hu hm (beginTick_phase.trans hphase)
      · exact ih hu hm (beginTick_phase.trans hphase)
      · exact endsInIdle_of_idle rfl

theorem endsInIdle_of_flush (hduties : TransportMeetsDuties s₀) (h : Within s₀ t) (hphase : t.phase = .flush) :
    EndsInIdle t := by
  obtain ⟨-, hdone, htruth⟩ := hduties
  obtain ⟨u, hreach, hu⟩ := hdone t h.busy hphase
  exact endsInIdle_of_confirmed htruth hreach hu h hphase

/-! ## TRANSMIT -/

/-- A move in TRANSMIT offers a byte that is not taken, or leaves fewer bytes to hand over, or starts FLUSH. -/
theorem Move.transmit_progress (h : Move i m t) (hphase : m.phase = .transmit) (hidx : m.txIdx < m.txLen) :
    (i.txReady = false ∧ t.phase = .transmit ∧ t.txLen - t.txIdx = m.txLen - m.txIdx) ∨
    (t.phase = .transmit ∧ t.txLen - t.txIdx < m.txLen - m.txIdx) ∨ t.phase = .flush := by
  rcases h.of_transmit hphase with ⟨hno, rfl⟩ | ⟨-, -, rfl⟩ | ⟨-, -, rfl⟩
  · exact .inl ⟨hno, hphase, rfl⟩
  · exact .inr (.inl ⟨hphase, by simp only; omega⟩)
  · exact .inr (.inr rfl)

/-- The byte that the transport owes to take is taken, or the phase has changed before. -/
theorem endsInIdle_of_taken (hduties : TransportMeetsDuties s₀) (hreach : Reach t u)
    (hu : u.phase ≠ .transmit ∨ u.input.txReady = true) (h : Within s₀ t) (hphase : t.phase = .transmit)
    (hfewer : ∀ m, Within s₀ m → m.phase = .transmit → m.txLen - m.txIdx < t.txLen - t.txIdx → EndsInIdle m) :
    EndsInIdle t := by
  induction hreach with
  | here t =>
    have hready : t.input.txReady = true := hu.resolve_left (absurd hphase)
    have hidx := txIdx_lt_of_inv h.inv hphase
    refine h.endsInIdle fun m hm hmove => ?_
    rcases hmove.transmit_progress (beginTick_phase.trans hphase) (by simpa using hidx) with ⟨hno, -⟩ | ⟨hp, hless⟩ | hp
    · cases hno.symm.trans hready
    · exact hfewer m hm hp (by simpa using hless)
    · exact endsInIdle_of_flush hduties hm hp
  | @tick t m u hstep _ ih =>
    have hidx := txIdx_lt_of_inv h.inv hphase
    refine EndsInIdle.tick ?_ hstep
    rcases h.step_cases hstep with hidle | ⟨hm, hmove⟩
    · exact endsInIdle_of_idle hidle
    · rcases hmove.transmit_progress (beginTick_phase.trans hphase) (by simpa using hidx) with
        ⟨-, hp, hsame⟩ | ⟨hp, hless⟩ | hp
      · rw [beginTick_txLen, beginTick_txIdx] at hsame
        exact ih hu hm hp (hsame ▸ hfewer)
      · exact hfewer m hm hp (by simpa using hless)
      · exact endsInIdle_of_flush hduties hm hp

theorem endsInIdle_of_transmit (hduties : TransportMeetsDuties s₀) (h : Within s₀ t) (hphase : t.phase = .transmit) :
    EndsInIdle t := by
  induction hn : t.txLen - t.txIdx using Nat.strong_induction_on generalizing t with
  | _ n ih =>
    obtain ⟨u, hreach, hu⟩ := hduties.1 t h.busy hphase
    exact endsInIdle_of_taken hduties hreach hu h hphase fun m hm hp hless => ih _ (hn ▸ hless) hm hp rfl

/-! ## RECEIVING -/

theorem Move.build (h : Move i m t) : t.build = m.build := by
  obtain ⟨-, -, -, hbuild⟩ := h.config
  exact hbuild

/-- A move in RECEIVING leaves it, or buffers a byte more, or counts a tick of silence more. -/
theorem Move.receiving_progress (h : Move i m t) (hphase : m.phase = .receiving) :
    t.phase = .idle ∨ t.phase = .transmit ∨ t.phase = .receiving ∧
      (t.rxLen = m.rxLen + 1 ∨ t.rxLen = m.rxLen ∧ t.sil.toNat = m.sil.toNat + 1) := by
  cases h with
  | append => exact .inr (.inr ⟨hphase, .inl rfl⟩)
  | wait _ _ hshort =>
    have hcount : (satIncr m.sil).toNat = min (m.sil.toNat + 1) (2 ^ 32 - 1) := counted_satIncr m
    have h15 := m.t15.isLt
    have h35 := m.t35.isLt
    exact .inr (.inr ⟨hphase, .inr ⟨rfl, by rw [countSilence_sil]; omega⟩⟩)
  | overflow | abandon | drop => exact .inl rfl
  | request =>
    rw [answer, perform_phase]
    split
    · exact .inl rfl
    · exact .inr (.inl rfl)
  | early hp | first hp | idle hp | offer hp | take hp | takeLast hp | unconfirmed hp | hold hp | release hp =>
    cases hphase.symm.trans hp

/-- Room in the buffer, and then silence still to be counted. -/
def patience (t : State) : Nat := (t.build.rxBufCap - t.rxLen) * 2 ^ 32 + (2 ^ 32 - t.sil.toNat)

theorem endsInIdle_of_receiving (hduties : TransportMeetsDuties s₀) (h : Within s₀ t) (hphase : t.phase = .receiving) :
    EndsInIdle t := by
  induction hn : patience t using Nat.strong_induction_on generalizing t with
  | _ n ih =>
    refine h.endsInIdle fun m hm hmove => ?_
    have hcap : m.build = t.build := hmove.build.trans beginTick_build
    rcases hmove.receiving_progress (beginTick_phase.trans hphase) with hp | hp | ⟨hp, hmore⟩
    · exact endsInIdle_of_idle hp
    · exact endsInIdle_of_transmit hduties hm hp
    · have hroom : m.rxLen < m.build.rxBufCap := rxLen_lt_of_inv hm.inv
      have hsil := t.sil.isLt
      refine ih (patience m) ?_ hm hp rfl
      rw [beginTick_rxLen, beginTick_sil] at hmore
      rw [hcap] at hroom
      rw [← hn, patience, patience, hcap]
      omega

end Sys2Proof.Machine

namespace Sys2Proof.Proofs

open Sys2Proof.Machine

/-- Settles O60: from each phase the transaction that the state is in ends. -/
theorem everyTransactionEndsInIdle : Obligations.EveryTransactionEndsInIdle := by
  unfold Obligations.EveryTransactionEndsInIdle
  intro s hlegal hinv hduties
  have hwithin (hbusy : s.phase ≠ .idle) : Within s s := ⟨.here hbusy, hlegal, hinv⟩
  cases hphase : s.phase with
  | idle => exact endsInIdle_of_idle hphase
  | receiving => exact endsInIdle_of_receiving hduties (hwithin (by simp [hphase])) hphase
  | transmit => exact endsInIdle_of_transmit hduties (hwithin (by simp [hphase])) hphase
  | flush => exact endsInIdle_of_flush hduties (hwithin (by simp [hphase])) hphase

end Sys2Proof.Proofs
end
